-- ==== Sys2Proof/Word.lean ====
section
/-! DEFINITION. The bit-vector types of the block's buses and registers (00_scope.md sections 4 and 6).
Bit 0 is the least significant bit everywhere (R54, R71). Every quantity is unsigned (section 6.1). -/

namespace Sys2Proof

/-- One byte of the stream, and one cell of the window: `u8`. -/
abbrev Byte := BitVec 8

/-- An accumulator, the digest and the response port: `u32` (R6). -/
abbrev Word := BitVec 32

/-- A window slot's address, the width of `cursor`: 6 bits (R7, R22). -/
abbrev SlotAddr := BitVec 6

/-- The result of `vbits`: 6 bits (R132). -/
abbrev VbitsWord := BitVec 6

/-- A command word, format CMD12 (R72). -/
abbrev CmdWord := BitVec 12

/-- The field `op = cmd[11:8]` (R72). -/
abbrev Opcode := BitVec 4

end Sys2Proof
end

