-- ==== Sys2Proof/Syntax.lean ====
section
/-! DEFINITION. The commands of the block: one constructor for each row of spec/opcode_table.json (30_encoding.md R73).
A command is what the spec calls an instruction (R3). The bits `cmd[7:0]` that a command ignores carry no meaning (R75),
so no constructor but `roll` has an operand (log 8). -/

namespace Sys2Proof

/-- A command (R70, R73). The ten reserved opcodes are rows of the opcode table too: each raises IllegalCommand (R76). -/
inductive Instr where
  /-- 0x0 NOP (R103). -/
  | nop
  /-- 0x1 CREATE (R100). -/
  | create
  /-- 0x2 ROLL with the stream byte `cmd[7:0]` (R102). -/
  | roll (data : Byte)
  /-- 0x3, reserved (R76). -/
  | reserved3
  /-- 0x4 DIGEST (R131). -/
  | digest
  /-- 0x5 VBITS (R133). -/
  | vbits
  /-- 0x6 ONSPLIT (R135). -/
  | onsplit
  /-- 0x7, reserved (R76). -/
  | reserved7
  /-- 0x8, reserved (R76). -/
  | reserved8
  /-- 0x9, reserved (R76). -/
  | reserved9
  /-- 0xA, reserved (R76). -/
  | reservedA
  /-- 0xB, reserved (R76). -/
  | reservedB
  /-- 0xC, reserved (R76). -/
  | reservedC
  /-- 0xD, reserved (R76). -/
  | reservedD
  /-- 0xE, reserved (R76). -/
  | reservedE
  /-- 0xF, reserved (R76). -/
  | reservedF
  deriving DecidableEq, Repr

end Sys2Proof
end

