-- ==== Sys2Proof/WellFormed.lean ====
section
/-! DEFINITION. The check of a command. ROLL's operand is a byte by its type, so the one thing that can be wrong with a
command is a reserved opcode: "a well-formed stream contains no reserved opcode" (60_exceptions.md section 7; the host's
duty (c) of 70_reset_and_hazards.md R187). The block itself executes every command, well formed or not (R74, R76). -/

namespace Sys2Proof

/-- The command is one of the six of R73; a reserved opcode is refused. -/
def Instr.wellFormed : Instr → Bool
  | .nop => true
  | .create => true
  | .roll _ => true
  | .digest => true
  | .vbits => true
  | .onsplit => true
  | .reserved3 => false
  | .reserved7 => false
  | .reserved8 => false
  | .reserved9 => false
  | .reservedA => false
  | .reservedB => false
  | .reservedC => false
  | .reservedD => false
  | .reservedE => false
  | .reservedF => false

end Sys2Proof
end

