-- ==== Sys2Proof/Decode.lean ====
section
/-! DEFINITION. Decoding and encoding of command words, from 30_encoding.md R72, R73, R75, R76, R81. Every 12-bit word
decodes (R80: "The decode is total"): a reserved opcode decodes to its own reserved command, which raises IllegalCommand
when executed. A number of more than 12 bits is no command word (R72: "There is no other length") and is rejected by name. -/

namespace Sys2Proof

/-- `op = cmd[11:8]` (R72). -/
def opField (w : CmdWord) : Opcode := w.extractLsb' 8 4

/-- `data = cmd[7:0]` (R72). -/
def dataField (w : CmdWord) : Byte := w.extractLsb' 0 8

/-- The command a word stands for (R73). Every command but ROLL ignores `data` (R75).
The last arm is no opcode: a 4-bit field has no value of 16 or more. -/
def decode (w : CmdWord) : Instr :=
  match (opField w).toFin with
  | 0x0 => .nop
  | 0x1 => .create
  | 0x2 => .roll (dataField w)
  | 0x3 => .reserved3
  | 0x4 => .digest
  | 0x5 => .vbits
  | 0x6 => .onsplit
  | 0x7 => .reserved7
  | 0x8 => .reserved8
  | 0x9 => .reserved9
  | 0xA => .reservedA
  | 0xB => .reservedB
  | 0xC => .reservedC
  | 0xD => .reservedD
  | 0xE => .reservedE
  | 0xF => .reservedF
  | ⟨n + 16, h⟩ => absurd h (by omega)

/-- Why a number is no command word. -/
inductive DecodeReject where
  /-- The number has a bit above bit 11; every command word is 12 bits (R72, R81). -/
  | notTwelveBits (value : Nat)
  deriving DecidableEq, Repr

/-- The 12-bit word that a number is, or the rejection by name (R72). -/
def wordOfNumber (value : Nat) : Except DecodeReject CmdWord :=
  if value < 2 ^ 12 then .ok (BitVec.ofNat 12 value) else .error (.notTwelveBits value)

/-- The host's question: what the decoder reads from an instruction of the low `nbits` bits of `w`, bits above them zero.
A command is one 12-bit word on a bus, so there is no byte order to undo (R54, R81; log 9). -/
def decodeTableWord (nbits w : Nat) : Option Instr :=
  match wordOfNumber (w % 2 ^ nbits) with
  | .ok cmd => some (decode cmd)
  | .error _ => none

/-- The opcode of a command, from R73's table. -/
def Instr.opcode : Instr → Opcode
  | .nop => 0x0#4
  | .create => 0x1#4
  | .roll _ => 0x2#4
  | .reserved3 => 0x3#4
  | .digest => 0x4#4
  | .vbits => 0x5#4
  | .onsplit => 0x6#4
  | .reserved7 => 0x7#4
  | .reserved8 => 0x8#4
  | .reserved9 => 0x9#4
  | .reservedA => 0xA#4
  | .reservedB => 0xB#4
  | .reservedC => 0xC#4
  | .reservedD => 0xD#4
  | .reservedE => 0xE#4
  | .reservedF => 0xF#4

/-- The `data` field an assembler emits: ROLL's byte, else the canonical 0x00 (R75); 0x00 for a reserved opcode too, the
model's choice (log 8). -/
def Instr.dataByte : Instr → Byte
  | .roll data => data
  | .nop => 0x00#8
  | .create => 0x00#8
  | .reserved3 => 0x00#8
  | .digest => 0x00#8
  | .vbits => 0x00#8
  | .onsplit => 0x00#8
  | .reserved7 => 0x00#8
  | .reserved8 => 0x00#8
  | .reserved9 => 0x00#8
  | .reservedA => 0x00#8
  | .reservedB => 0x00#8
  | .reservedC => 0x00#8
  | .reservedD => 0x00#8
  | .reservedE => 0x00#8
  | .reservedF => 0x00#8

/-- The canonical word of a command: `op` in bits 11 to 8, `data` in bits 7 to 0 (R72, R73). The spec gives a reserved
opcode no canonical word; that it is encoded with `data = 0x00` is the model's choice (log 8). -/
def encode (i : Instr) : CmdWord := i.opcode ++ i.dataByte

end Sys2Proof
end

