-- ==== Sys2Proof/Config.lean ====
section
/-! DEFINITION. The constants of 00_scope.md R6 and R7, each under its name, as 93_implementation_defined.md U9 asks
(UNVERIFIED literals of the source: log 10), and the free values of the power-on state (R33, log 6). -/

namespace Sys2Proof

/-- `N`, the number of window slots (R6). -/
def Config.windowSize : Nat := 64

/-- `OFFSET`, added to every byte in both sums (R6). -/
def Config.offset : Nat := 31

/-- `SPLIT_BITS`: the width of the boundary predicate, the shift and the base of `variableBits` (R6). -/
def Config.splitBits : Nat := 13

/-- `SPLIT_MASK = 0x1FFF` (R6, R7). -/
def Config.splitMask : Word := 0x00001FFF#32

/-- The left shift that puts `sum1` into the digest (R130). -/
def Config.digestShift : Nat := 16

/-- The mask that keeps `sum2[15:0]` in the digest (R130). -/
def Config.digestMask : Word := 0x0000FFFF#32

/-- `DIGEST_W`, the bound of the count in `variableBits` (R132; it never binds). -/
def Config.digestWidth : Nat := 32

/-- `INIT_SUM1 = N * OFFSET = 1984` (R7, R32). -/
def Config.initSum1 : Word := BitVec.ofNat 32 (Config.windowSize * Config.offset)

/-- `INIT_SUM2 = N * (N-1) * OFFSET = 124992`: the formula wins over its explanation (R7, R32, 90_conflicts.md C1). -/
def Config.initSum2 : Word :=
  BitVec.ofNat 32 (Config.windowSize * (Config.windowSize - 1) * Config.offset)

/-- `CURSOR_RESET = 0` (R32, the spec's decision D11). -/
def Config.cursorReset : SlotAddr := 0#6

/-- FREE VALUE (log 6): window slot `i` before the first reset or CREATE (R33). -/
opaque Config.powerOnByte : Nat → Byte

/-- FREE VALUE (log 6): `cursor` before the first reset or CREATE (R33). -/
opaque Config.powerOnCursor : SlotAddr

/-- FREE VALUE (log 6): `sum1` before the first reset or CREATE (R33). -/
opaque Config.powerOnSum1 : Word

/-- FREE VALUE (log 6): `sum2` before the first reset or CREATE (R33). -/
opaque Config.powerOnSum2 : Word

/-- FREE VALUE (log 6): the model's record of `rsp_valid` before any cycle. -/
opaque Config.powerOnRspValid : Bool

/-- FREE VALUE (log 6): the model's record of `rsp` before any cycle. -/
opaque Config.powerOnRsp : Word

/-- FREE VALUE (log 6): the model's record of `cmd_err` before any cycle. -/
opaque Config.powerOnCmdErr : Bool

end Sys2Proof
end

