-- ==== Sys2Proof/Machine/State.lean ====
section
/-! DEFINITION. The state of one instance (10_state.md R20: exactly `window`, `cursor`, `sum1`, `sum2`) beside the values
of its ports (30_encoding.md R71): what the host drives in the coming cycles (log 1) and what the block drove in the cycle
just performed (log 2). All of it is plain data. -/

namespace Sys2Proof.Machine

/-- The input ports in one cycle, as sampled at the edge that ends it (R71, R72). -/
structure PortInput where
  /-- `rst`, synchronous, active high. -/
  rst : Bool
  /-- `cmd_valid`: `cmd` carries a command this cycle. -/
  cmdValid : Bool
  /-- `cmd`, the command word. -/
  cmd : CmdWord
  deriving DecidableEq, Repr

/-- The window's contents by slot address, in one canonical form (`Memory.wf`, log 4). -/
abbrev Memory := List Host.Cell

/-- One instance of the block. -/
structure State where
  /-- The ring buffer of 64 bytes (R21). -/
  window : Memory
  /-- The slot the next ROLL overwrites, which holds the oldest byte (R22). -/
  cursor : SlotAddr
  /-- The running sum of byte plus offset (R23). -/
  sum1 : Word
  /-- The second accumulator, fixed by the update recurrence (R24). -/
  sum2 : Word
  /-- MODEL (log 1): the input ports in the coming cycles, the next cycle first. -/
  inputs : List PortInput
  /-- MODEL (log 2): `rsp_valid` in the cycle just performed. -/
  rspValid : Bool
  /-- MODEL (log 2): `rsp` in the cycle just performed. -/
  rsp : Word
  /-- MODEL (log 2): `cmd_err` in the cycle just performed. -/
  cmdErr : Bool
  deriving DecidableEq, Repr

/-- Why the machine would stop with a fault. There is no reason: the block has no fault state and every command completes
(R160, R188); IllegalCommand is a next state (R76, log 7). Safe and exact: nothing raises a fault. -/
inductive Fault : Type
  deriving DecidableEq, Repr

/-- Why the model would refuse to go on. -/
inductive Refusal where
  /-- An arm of `exec` that has no meaning yet. Nobody raises it: every arm has its meaning (log 16). Safe if raised,
  since no claim about a next state could follow. -/
  | notModelled (mnemonic : String)
  deriving DecidableEq, Repr

/-- The machine right after a cycle of `rst = 1`: the initial state `S0` of R32, the outputs that R79 gives that cycle,
and no input presented yet (log 1). -/
def State.reset : State where
  window := []
  cursor := Config.cursorReset
  sum1 := Config.initSum1
  sum2 := Config.initSum2
  inputs := []
  rspValid := false
  rsp := 0x00000000#32
  cmdErr := false

end Sys2Proof.Machine
end

