-- ==== Sys2Proof/Machine/Operands.lean ====
section
/-! DEFINITION. The operand forms: ROLL's immediate byte (30_encoding.md R75) and the one addressing mode, indirect
through `cursor` with post-increment modulo 64 (40_create_update_roll.md R109). -/

namespace Sys2Proof.Machine

/-- `zext_32` of a byte: how a byte enters the accumulator arithmetic (R9, R75, R104). Never sign-extended. -/
def zextByte (b : Byte) : Word := b.setWidth 32

/-- `zext_32` of a `vbits` result (R77). -/
def zextVbits (v : VbitsWord) : Word := v.setWidth 32

/-- `zext_32` of a one-bit result, 1 for true (R77, R134). -/
def zextBool (b : Bool) : Word := if b then 1#32 else 0#32

/-- The effective address of the window access: `ea = cursor`, no offset, no scaling (R51, R109). -/
def State.effectiveAddress (s : State) : SlotAddr := s.cursor

/-- `(ea + 1) mod 64`, a 6-bit addition (R104, R109). -/
def postIncrement (a : SlotAddr) : SlotAddr := a + 1#6

end Sys2Proof.Machine
end

