-- ==== Sys2Proof/Machine/Flags.lean ====
section
/-! DEFINITION. The block stores no flag (10_state.md R25, R104): what a processor would keep as flags are the pure
functions of `sum1` and `sum2` of 41_digest_vbits_onsplit.md, computed each time they are asked for (R136). -/

namespace Sys2Proof.Machine

/-- `digest = (sum1 << 16) | (sum2 & 0xFFFF)`, truncated to 32 bits (R130). -/
def digest (sum1 sum2 : Word) : Word :=
  (sum1 <<< Config.digestShift) ||| (sum2 &&& Config.digestMask)

/-- The run of one bits of `v` from bit `i` upward, at most `fuel` long: the loop of R132's pseudocode. -/
def onesFrom (v : Word) : Nat → Nat → Nat
  | 0, _ => 0
  | fuel + 1, i => if v.getLsbD i then onesFrom v fuel (i + 1) + 1 else 0

/-- `cto(v)`, the count of trailing ones of a 32-bit value (00_scope.md section 6.2). -/
def cto (v : Word) : Nat := onesFrom v Config.digestWidth 0

/-- `vbits = 13 + cto(digest >> 13)`, a logical shift, on 6 bits (R132; log 12). -/
def vbits (sum1 sum2 : Word) : VbitsWord :=
  BitVec.ofNat 6 (Config.splitBits + cto (digest sum1 sum2 >>> Config.splitBits))

/-- The boundary predicate `(sum2 & 0x1FFF) == 0x1FFF` (R134). -/
def onSplit (sum2 : Word) : Bool := (sum2 &&& Config.splitMask) == Config.splitMask

/-- Status output `digest_o` of the current state (R78; log 17). -/
def State.digestO (s : State) : Word := digest s.sum1 s.sum2

/-- Status output `vbits_o` of the current state (R78). -/
def State.vbitsO (s : State) : VbitsWord := vbits s.sum1 s.sum2

/-- Status output `split_o` of the current state (R78). -/
def State.splitO (s : State) : Bool := onSplit s.sum2

end Sys2Proof.Machine
end

