-- ==== Sys2Proof/Machine/Ops.lean ====
section
/-! DEFINITION. The named operations: the window's storage (20_memory.md), the output ports (30_encoding.md section 5),
the one exception (60_exceptions.md R161), initialisation, UPDATE and ROLL (40_create_update_roll.md). -/

namespace Sys2Proof.Machine

/-! ### The window as a memory -/

/-- What a slot that is not listed holds: the reset contents 0x00 (R29, R32; log 4). -/
def Memory.unlisted : Byte := 0x00#8

/-- Cells from address `lo` on: strictly rising, below 64, none equal to `Memory.unlisted`. -/
def Memory.wfFrom : Nat → Memory → Bool
  | _, [] => true
  | lo, (a, b) :: rest =>
    decide (lo ≤ a) && decide (a < Config.windowSize) && decide (b ≠ Memory.unlisted) && Memory.wfFrom (a + 1) rest

/-- The canonical form of the window (log 4): addresses strictly rising within 0 to 63 (R50, R52), no cell that holds what
an unlisted slot reads as. -/
def Memory.wf (m : Memory) : Bool := Memory.wfFrom 0 m

/-- The byte at an address. -/
def Memory.read : Memory → Nat → Byte
  | [], _ => Memory.unlisted
  | (c, b) :: rest, a => if c = a then b else Memory.read rest a

/-- The memory with no cell listed at an address. -/
def Memory.erase (m : Memory) (a : Nat) : Memory := m.filter (fun c => c.1 != a)

/-- A cell put in at its place in the rising order. -/
def Memory.insert (a : Nat) (b : Byte) : Memory → Memory
  | [] => [(a, b)]
  | c :: rest => if a < c.1 then (a, b) :: c :: rest else c :: Memory.insert a b rest

/-- One byte stored at an address (R53); the canonical form is kept. -/
def Memory.write (m : Memory) (a : Nat) (b : Byte) : Memory :=
  if b = Memory.unlisted then Memory.erase m a else Memory.insert a b (Memory.erase m a)

/-- `window[i] <- 0x00` for all 64 slots (R51, R100). -/
def Memory.cleared : Memory := []

/-- `window[a]`, one byte (R53). An address outside the window cannot be formed (R52). -/
def State.readSlot (s : State) (a : SlotAddr) : Byte := s.window.read a.toNat

/-- `window[a] <- b`: exactly one slot (R53, R102). -/
def State.writeSlot (s : State) (a : SlotAddr) (b : Byte) : State :=
  { s with window := s.window.write a.toNat b }

/-! ### The ports -/

/-- The values of `rsp_valid`, `rsp` and `cmd_err` in the cycle being performed (R71; log 2). -/
def State.drivePorts (s : State) (valid : Bool) (value : Word) (err : Bool) : State :=
  { s with rspValid := valid, rsp := value, cmdErr := err }

/-- No response, no error: `rsp_valid = 0`, `rsp = 0`, `cmd_err = 0` (R77, R79). -/
def State.quiet (s : State) : State := s.drivePorts false 0x00000000#32 false

/-- `respond(v)`: `rsp_valid = 1`, `rsp = v` in the query's own cycle (R77). -/
def State.respond (s : State) (v : Word) : State := s.drivePorts true v false

/-- A cycle with `rst = 0` and `cmd_valid = 1` (R72). -/
def PortInput.command (w : CmdWord) : PortInput := { rst := false, cmdValid := true, cmd := w }

/-- A cycle with `rst = 0` and `cmd_valid = 0`; `cmd` is ignored (R74, R79; log 14 for its value). -/
def PortInput.idle : PortInput := { rst := false, cmdValid := false, cmd := 0x000#12 }

/-- A cycle with `rst = 1`; the command inputs are ignored (R79; log 14 for their values). -/
def PortInput.reset : PortInput := { rst := true, cmdValid := false, cmd := 0x000#12 }

/-- The state with the inputs of the coming cycles replaced (log 1). -/
def State.withInputs (s : State) (xs : List PortInput) : State := { s with inputs := xs }

/-! ### The exception -/

/-- The only exception of the block (R161). -/
inductive Exception where
  /-- IllegalCommand, raised by a command with the reserved opcode `op` (R76). -/
  | illegalCommand (op : Opcode)
  deriving DecidableEq, Repr

/-- The cause code, 1 for the only cause; it is recorded nowhere (R161, the spec's decision D28). -/
def Exception.code : Exception → Nat
  | .illegalCommand _ => 1

/-- Taking an exception: no state changes, nothing is saved, control goes nowhere; `cmd_err = 1`, no response, for this
cycle only (R76, R161, R165). There is no return from it (R166): the next cycle simply follows. The spec's exact reading,
not its fault reading (log 7). -/
def State.takeException (s : State) : Exception → State
  | .illegalCommand _ => s.drivePorts false 0x00000000#32 true

/-! ### Initialisation, UPDATE and ROLL -/

/-- All 582 bits of the architectural state to `S0` (R32, R100, R180); the ports are not touched. -/
def State.initialise (s : State) : State :=
  { s with
    window := Memory.cleared
    cursor := Config.cursorReset
    sum1 := Config.initSum1
    sum2 := Config.initSum2 }

/-- UPDATE: `sum1 + new - dropped`, then `sum2 + sum1 - N * (dropped + offset)` with the NEW `sum1`, all modulo 2^32
(R101, R106; log 11). It touches neither the window nor the cursor. -/
def update (sum1 sum2 : Word) (dropped new : Byte) : Word × Word :=
  let s1n := sum1 + zextByte new - zextByte dropped
  let t := (zextByte dropped + BitVec.ofNat 32 Config.offset) * BitVec.ofNat 32 Config.windowSize
  (s1n, sum2 + s1n - t)

/-- ROLL: the dropped byte is read before the store, both at the old cursor, and all four attributes change together
(R55, R56, R102, R184). -/
def State.roll (s : State) (data : Byte) : State :=
  let ea := s.effectiveAddress
  let dropped := s.readSlot ea
  let sums := update s.sum1 s.sum2 dropped data
  { s.writeSlot ea data with
    sum1 := sums.1
    sum2 := sums.2
    cursor := postIncrement ea }

end Sys2Proof.Machine
end

