-- ==== Sys2Proof/Machine/Query.lean ====
section
/-! DEFINITION. DIGEST, VBITS and ONSPLIT (41_digest_vbits_onsplit.md): pure reads that respond in their own cycle with a
function of the current state (R77, R136). -/

namespace Sys2Proof.Machine

/-- DIGEST: `rsp[31:0] = digest(S)` (R131). -/
def execDigest (s : State) : Host.Outcome State Fault Refusal := .next (s.respond s.digestO)

/-- VBITS: `rsp[5:0] = vbits(S)`, `rsp[31:6] = 0` (R133). -/
def execVbits (s : State) : Host.Outcome State Fault Refusal := .next (s.respond (zextVbits s.vbitsO))

/-- ONSPLIT: `rsp[0] = onSplit(S)`, `rsp[31:1] = 0` (R135). -/
def execOnsplit (s : State) : Host.Outcome State Fault Refusal := .next (s.respond (zextBool s.splitO))

end Sys2Proof.Machine
end

