-- ==== Sys2Proof/Machine/Reserved.lean ====
section
/-! DEFINITION. The ten reserved opcodes: each raises IllegalCommand with its own opcode (30_encoding.md R76,
60_exceptions.md R161). The effect is the spec's: the state is unchanged and `cmd_err = 1` for that cycle (log 7). -/

namespace Sys2Proof.Machine

/-- Opcode 0x3: IllegalCommand (R76). -/
def execReserved3 (s : State) : Host.Outcome State Fault Refusal := .next (s.takeException (.illegalCommand 0x3#4))

/-- Opcode 0x7: IllegalCommand (R76). -/
def execReserved7 (s : State) : Host.Outcome State Fault Refusal := .next (s.takeException (.illegalCommand 0x7#4))

/-- Opcode 0x8: IllegalCommand (R76). -/
def execReserved8 (s : State) : Host.Outcome State Fault Refusal := .next (s.takeException (.illegalCommand 0x8#4))

/-- Opcode 0x9: IllegalCommand (R76). -/
def execReserved9 (s : State) : Host.Outcome State Fault Refusal := .next (s.takeException (.illegalCommand 0x9#4))

/-- Opcode 0xA: IllegalCommand (R76). -/
def execReservedA (s : State) : Host.Outcome State Fault Refusal := .next (s.takeException (.illegalCommand 0xA#4))

/-- Opcode 0xB: IllegalCommand (R76). -/
def execReservedB (s : State) : Host.Outcome State Fault Refusal := .next (s.takeException (.illegalCommand 0xB#4))

/-- Opcode 0xC: IllegalCommand (R76). -/
def execReservedC (s : State) : Host.Outcome State Fault Refusal := .next (s.takeException (.illegalCommand 0xC#4))

/-- Opcode 0xD: IllegalCommand (R76). -/
def execReservedD (s : State) : Host.Outcome State Fault Refusal := .next (s.takeException (.illegalCommand 0xD#4))

/-- Opcode 0xE: IllegalCommand (R76). -/
def execReservedE (s : State) : Host.Outcome State Fault Refusal := .next (s.takeException (.illegalCommand 0xE#4))

/-- Opcode 0xF: IllegalCommand (R76). -/
def execReservedF (s : State) : Host.Outcome State Fault Refusal := .next (s.takeException (.illegalCommand 0xF#4))

end Sys2Proof.Machine
end

