-- ==== Sys2Proof/Machine/StateChange.lean ====
section
/-! DEFINITION. CREATE, ROLL and NOP (40_create_update_roll.md). -/

namespace Sys2Proof.Machine

/-- NOP: nothing changes, no response, no error (R103). -/
def execNop (s : State) : Host.Outcome State Fault Refusal := .next s.quiet

/-- CREATE: the initial state `S0`, whatever the state was; no response (R100). -/
def execCreate (s : State) : Host.Outcome State Fault Refusal := .next s.initialise.quiet

/-- ROLL: the per-byte operation; no response (R102). -/
def execRoll (data : Byte) (s : State) : Host.Outcome State Fault Refusal := .next (s.roll data).quiet

end Sys2Proof.Machine
end

