-- ==== Sys2Proof/Machine/Cycle.lean ====
section
/-! DEFINITION. One clock cycle: the input ports sampled at its end, and what the block does with them in the precedence of
60_exceptions.md R164 (30_encoding.md R79, R80). -/

namespace Sys2Proof.Machine

/-- An idle cycle: nothing changes, no response, no error (R74, R79). -/
def State.idleCycle (s : State) : State := s.quiet

/-- A cycle of `rst = 1`: the next state is `S0`, no response, no error, whatever the command inputs are (R79, R180). -/
def State.resetCycle (s : State) : State := s.initialise.quiet

/-- One cycle with the input ports `x` (R80): reset first, then idle, then the command (R164). -/
def cycle (x : PortInput) (s : State) : Host.Outcome State Fault Refusal :=
  if x.rst then .next s.resetCycle
  else if x.cmdValid then exec (decode x.cmd) s
  else .next s.idleCycle

/-- The input ports of the coming cycle. When the host has presented nothing more, it drives an idle cycle (R188; log 3). -/
def State.sampledInput (s : State) : PortInput := s.inputs.head?.getD PortInput.idle

/-- The state with the coming cycle's inputs taken off the list (log 1). -/
def State.consumeInput (s : State) : State := s.withInputs s.inputs.tail

/-- The command word `w` driven in the coming cycle, in place of what was to be driven there (log 9). -/
def State.presentCommand (s : State) (w : CmdWord) : State :=
  s.withInputs (PortInput.command w :: s.inputs.tail)

end Sys2Proof.Machine
end

