-- ==== Sys2Proof/Machine/Step.lean ====
section
/-! DEFINITION. The step of the machine: one rising edge of `clk` (30_encoding.md R80). -/

namespace Sys2Proof.Machine

/-- One clock cycle with the next of the host's inputs (R80). -/
def step (s : State) : Host.Outcome State Fault Refusal := cycle s.sampledInput s.consumeInput

/-- `s` with the instruction of the low `nbits` bits of `w` on the command port in the coming cycle (log 9). -/
def State.withFetchWord (s : State) (nbits w : Nat) : State :=
  s.presentCommand (BitVec.ofNat 12 (w % 2 ^ nbits))

end Sys2Proof.Machine
end

