-- ==== Sys2Proof/Machine/Assembler.lean ====
section
/-! DEFINITION. The assembler of 30_encoding.md R82 and R83: source lines, their check, their expansion into the cycles the
host drives, and their text. The lexical points the spec leaves open are log 14. -/

namespace Sys2Proof.Machine

/-- Why a line does not assemble. R82 names one assembly error, `byteOutOfRange`; that each of the others is an error is the
model's choice (log 14). -/
inductive AsmError where
  /-- A byte operand outside 0 to 255 (R82: "an assembly error"). -/
  | byteOutOfRange (value : Nat)
  /-- A `.word` operand that is no 12-bit word: the model's choice (log 14), after R83's "the 12-bit word". -/
  | wordOutOfRange (value : Nat)
  /-- A character that is not ASCII, in quotes or in a text: the model's choice (log 14), after R82's "one ASCII character"
  and R83's "ASCII codes". -/
  | notAscii (code : Nat)
  /-- A number that is neither decimal nor hexadecimal, the two forms of R82: the model's choice (log 14). -/
  | badNumber
  /-- A text with no closing double quote: the model's choice (log 14). -/
  | unclosedText
  /-- A line that begins with no word, or a first word that is no mnemonic of R82 and no pseudo-instruction of R83 in the form
  it stands in, alone or with one number: the model's choice (log 14). -/
  | unknownMnemonic
  /-- Operands in any other form that R82 and R83 do not give, such as a comma with no byte after it: the model's choice
  (log 14). -/
  | badOperands
  deriving DecidableEq, Repr

/-- One source line: a command of R82 or a pseudo-instruction of R83, its numbers as written. -/
inductive AsmLine where
  | nop
  | create
  | roll (byte : Nat)
  | digest
  | vbits
  | onsplit
  /-- `FEED <b0>, <b1>, ..., <bn>`. -/
  | feed (bytes : List Nat)
  /-- `FEED "text"`, by the characters' codes. -/
  | feedText (codes : List Nat)
  /-- `FEED <b> * <n>`. -/
  | feedRepeat (byte count : Nat)
  /-- `STEP <b>`. -/
  | step (byte : Nat)
  /-- `IDLE <n>`. -/
  | idle (cycles : Nat)
  /-- `RESET`. -/
  | reset
  /-- `.word <w>`. -/
  | word (value : Nat)
  deriving DecidableEq, Repr

/-- The check of a line: bytes within 0 to 255 (R82); texts ASCII and `.word` within 12 bits, the model's choice (log 14). -/
def AsmLine.wellFormed : AsmLine → Bool
  | .nop | .create | .digest | .vbits | .onsplit | .idle _ | .reset => true
  | .roll byte => decide (byte ≤ 255)
  | .feed bytes => bytes.all (fun v => decide (v ≤ 255))
  | .feedText codes => codes.all (fun c => decide (c ≤ 127))
  | .feedRepeat byte _ => decide (byte ≤ 255)
  | .step byte => decide (byte ≤ 255)
  | .word value => decide (value < 2 ^ 12)

/-- The cycle that delivers a command: its canonical word with `rst = 0`, `cmd_valid = 1` (R82). -/
def commandCycle (i : Instr) : PortInput := PortInput.command (encode i)

/-- A byte operand (R82). -/
def byteOperand (v : Nat) : Except AsmError Byte :=
  if v ≤ 255 then .ok (BitVec.ofNat 8 v) else .error (.byteOutOfRange v)

/-- `ROLL <b>` (R82). -/
def rollCycle (v : Nat) : Except AsmError PortInput :=
  match byteOperand v with
  | .ok b => .ok (commandCycle (.roll b))
  | .error e => .error e

/-- `ROLL <b0>`, `ROLL <b1>`, ... in that order (R83). -/
def rollCycles : List Nat → Except AsmError (List PortInput)
  | [] => .ok []
  | v :: vs =>
    match rollCycle v, rollCycles vs with
    | .ok x, .ok xs => .ok (x :: xs)
    | .error e, _ => .error e
    | _, .error e => .error e

/-- The cycles a line stands for (R82, R83). IDLE and RESET emit no command word. -/
def AsmLine.assemble : AsmLine → Except AsmError (List PortInput)
  | .nop => .ok [commandCycle .nop]
  | .create => .ok [commandCycle .create]
  | .roll byte => rollCycles [byte]
  | .digest => .ok [commandCycle .digest]
  | .vbits => .ok [commandCycle .vbits]
  | .onsplit => .ok [commandCycle .onsplit]
  | .feed bytes => rollCycles bytes
  | .feedText codes =>
    match codes.find? (fun c => decide (127 < c)) with
    | some c => .error (.notAscii c)
    | none => rollCycles codes
  | .feedRepeat byte count =>
    match rollCycle byte with
    | .ok x => .ok (List.replicate count x)
    | .error e => .error e
  | .step byte =>
    match rollCycle byte with
    | .ok x => .ok [x, commandCycle .onsplit]
    | .error e => .error e
  | .idle cycles => .ok (List.replicate cycles PortInput.idle)
  | .reset => .ok [PortInput.reset]
  | .word value =>
    match wordOfNumber value with
    | .ok w => .ok [PortInput.command w]
    | .error (.notTwelveBits v) => .error (.wordOutOfRange v)

/-- A line with the response that `-> <value>` expects of a query (R82). R82 gives `<value>` no form; that it is any number,
with no upper bound, is the model's choice (log 14). -/
structure SourceLine where
  line : AsmLine
  expect : Option Nat
  deriving DecidableEq, Repr

/-- The check of `-> <value>` against the state after the query's cycle: a check, not part of the command (R82). That it holds
when the cycle gave a response equal to the value as a number is the model's choice (log 14). -/
def SourceLine.holds (l : SourceLine) (after : State) : Bool :=
  match l.expect with
  | none => true
  | some v => after.rspValid && decide (after.rsp.toNat = v)

/-! ### The text of a line -/

/-- What a line's characters are made of. -/
inductive AsmToken where
  | name (chars : List Char)
  | number (value : Nat)
  | text (codes : List Nat)
  | comma
  | star
  | arrow
  deriving DecidableEq, Repr

/-- The value of a digit in base 10 or 16; a hexadecimal digit of either case (the model's choice, log 14). -/
def digitValue (base : Nat) (c : Char) : Option Nat :=
  let n := c.toNat
  let v := if 48 ≤ n ∧ n ≤ 57 then n - 48 else if 65 ≤ n ∧ n ≤ 70 then n - 55 else if 97 ≤ n ∧ n ≤ 102 then n - 87 else base
  if v < base then some v else none

/-- The number whose digits follow the digits of `v`. -/
def digitsFrom (base : Nat) : Nat → List Char → Option Nat
  | v, [] => some v
  | v, c :: cs =>
    match digitValue base c with
    | some d => digitsFrom base (v * base + d) cs
    | none => none

/-- A decimal or a `0x` hexadecimal number (R82). Counts, `.word` operands and the `<value>` of `-> <value>` are written so
too, the model's choice (log 14). -/
def parseNumber : List Char → Option Nat
  | '0' :: 'x' :: c :: cs => digitsFrom 16 0 (c :: cs)
  | c :: cs => digitsFrom 10 0 (c :: cs)
  | [] => none

/-- The token of a run of plain characters: a number if it begins with a decimal digit, else a name; a run that begins with a
digit and is no number is an error (the model's choice, log 14). -/
def wordToken (chars : List Char) : Except AsmError AsmToken :=
  match chars with
  | c :: _ =>
    if (digitValue 10 c).isSome then
      match parseNumber chars with
      | some v => .ok (.number v)
      | none => .error .badNumber
    else .ok (.name chars)
  | [] => .ok (.name [])

/-- The tokens `rest` with the run of characters collected before them, last character first. -/
def closeWord (collected : List Char) (rest : Except AsmError (List AsmToken)) : Except AsmError (List AsmToken) :=
  match rest with
  | .error e => .error e
  | .ok ts =>
    if collected.isEmpty then .ok ts
    else
      match wordToken collected.reverse with
      | .ok t => .ok (t :: ts)
      | .error e => .error e

/-- One token put before the others. -/
def consToken (t : AsmToken) (rest : Except AsmError (List AsmToken)) : Except AsmError (List AsmToken) :=
  match rest with
  | .ok ts => .ok (t :: ts)
  | .error e => .error e

/-- The tokens of a line; the first argument says whether it stands inside a text. Everything from a `;` outside quotes to
the end is a comment (R82). Where words end, and that a text left open is an error, are the model's choices (log 14). `\x22` is
the double quote, `\x27` the single quote. -/
def lexLine : Bool → List Char → List Char → Except AsmError (List AsmToken)
  | true, _, [] => .error .unclosedText
  | true, collected, c :: cs =>
    if c = '\x22' then consToken (.text (collected.reverse.map Char.toNat)) (lexLine false [] cs)
    else lexLine true (c :: collected) cs
  | false, collected, [] => closeWord collected (.ok [])
  | false, collected, '\x27' :: c :: '\x27' :: cs =>
    if c.toNat ≤ 127 then closeWord collected (consToken (.number c.toNat) (lexLine false [] cs))
    else .error (.notAscii c.toNat)
  | false, collected, '-' :: '>' :: cs => closeWord collected (consToken .arrow (lexLine false [] cs))
  | false, collected, c :: cs =>
    if c = ';' then closeWord collected (.ok [])
    else if c = ' ' || c = '\t' then closeWord collected (lexLine false [] cs)
    else if c = ',' then closeWord collected (consToken .comma (lexLine false [] cs))
    else if c = '*' then closeWord collected (consToken .star (lexLine false [] cs))
    else if c = '\x22' then closeWord collected (lexLine true [] cs)
    else lexLine false (c :: collected) cs

/-- The operands of `FEED <b0>, <b1>, ..., <bn>`; any other form is none, an error (the model's choice, log 14). -/
def feedOperands : List AsmToken → Option (List Nat)
  | [.number v] => some [v]
  | .number v :: .comma :: rest =>
    match feedOperands rest with
    | some vs => some (v :: vs)
    | none => none
  | _ => none

/-- The mnemonics that stand alone on a line. -/
def bareLine (n : List Char) : Option AsmLine :=
  if n = "NOP".toList then some .nop
  else if n = "CREATE".toList then some .create
  else if n = "DIGEST".toList then some .digest
  else if n = "VBITS".toList then some .vbits
  else if n = "ONSPLIT".toList then some .onsplit
  else if n = "RESET".toList then some .reset
  else none

/-- The mnemonics that take one number. -/
def numberLine (n : List Char) (v : Nat) : Option AsmLine :=
  if n = "ROLL".toList then some (.roll v)
  else if n = "FEED".toList then some (.feed [v])
  else if n = "STEP".toList then some (.step v)
  else if n = "IDLE".toList then some (.idle v)
  else if n = ".word".toList then some (.word v)
  else none

/-- The three queries, the lines that `-> <value>` may follow (R82). -/
def AsmLine.isQuery : AsmLine → Bool
  | .digest | .vbits | .onsplit => true
  | _ => false

/-- The line that tokens spell; none for a line with no token (empty, or a comment alone). Tokens in no form of R82 or R83
are an error, and the `<value>` of `-> <value>` is any number token, as `<byte>` is written and with no upper bound (the
model's choices, log 14). -/
def parseTokens : List AsmToken → Except AsmError (Option SourceLine)
  | [] => .ok none
  | [.name n] =>
    match bareLine n with
    | some l => .ok (some ⟨l, none⟩)
    | none => .error .unknownMnemonic
  | [.name n, .arrow, .number v] =>
    match bareLine n with
    | some l => if l.isQuery then .ok (some ⟨l, some v⟩) else .error .badOperands
    | none => .error .unknownMnemonic
  | [.name n, .number v] =>
    match numberLine n v with
    | some l => .ok (some ⟨l, none⟩)
    | none => .error .unknownMnemonic
  | [.name n, .text codes] =>
    if n = "FEED".toList then .ok (some ⟨.feedText codes, none⟩) else .error .badOperands
  | [.name n, .number v, .star, .number count] =>
    if n = "FEED".toList then .ok (some ⟨.feedRepeat v count, none⟩) else .error .badOperands
  | .name n :: rest =>
    if n = "FEED".toList then
      match feedOperands rest with
      | some vs => .ok (some ⟨.feed vs, none⟩)
      | none => .error .badOperands
    else .error .badOperands
  | _ => .error .unknownMnemonic

/-- The line that a text spells (R82, R83). -/
def parseLine (chars : List Char) : Except AsmError (Option SourceLine) :=
  match lexLine false [] chars with
  | .ok tokens => parseTokens tokens
  | .error e => .error e

/-- The cycles of a text line; a line of white space or comment alone stands for none. -/
def assembleText (chars : List Char) : Except AsmError (List PortInput) :=
  match parseLine chars with
  | .ok (some l) => l.line.assemble
  | .ok none => .ok []
  | .error e => .error e

/-- A program: its lines' cycles, top to bottom, one after another (R82). With a line that does not assemble, the program
does not, and the first such line's error is answered (the model's choice, log 14). -/
def assembleProgram : List (List Char) → Except AsmError (List PortInput)
  | [] => .ok []
  | l :: ls =>
    match assembleText l, assembleProgram ls with
    | .ok xs, .ok ys => .ok (xs ++ ys)
    | .error e, _ => .error e
    | _, .error e => .error e

end Sys2Proof.Machine
end

