-- ==== Sys2Proof/Machine/PowerOn.lean ====
section
/-! DEFINITION. The state before the first reset or CREATE (10_state.md R33): unspecified, so every part of it is a free
value of Config (93_implementation_defined.md U5, "any value under which nothing can be proved"; log 6). -/

namespace Sys2Proof.Machine

/-- The first `n` slots filled with a function's bytes, the others 0x00. -/
def Memory.filled (f : Nat → Byte) : Nat → Memory
  | 0 => Memory.cleared
  | n + 1 => (Memory.filled f n).write n (f n)

/-- The power-on state: 64 free bytes, a free cursor, free sums (R33), and no input presented yet. -/
def State.powerOn : State where
  window := Memory.filled Config.powerOnByte Config.windowSize
  cursor := Config.powerOnCursor
  sum1 := Config.powerOnSum1
  sum2 := Config.powerOnSum2
  inputs := []
  rspValid := Config.powerOnRspValid
  rsp := Config.powerOnRsp
  cmdErr := Config.powerOnCmdErr

end Sys2Proof.Machine
end

