-- ==== Sys2Proof/Safety.lean ====
section
/-! DEFINITION. The terms that claims about runs are made in: the age order of the window (10_state.md R36), the closed form
of the accumulators (R30), runs over a list of the host's inputs, and what a well-formed stream is (R187). -/

namespace Sys2Proof.Machine

/-- Two states agree in the four architectural attributes (R20). -/
abbrev State.SameArch (s t : State) : Prop :=
  s.window = t.window ∧ s.cursor = t.cursor ∧ s.sum1 = t.sum1 ∧ s.sum2 = t.sum2

/-- The cycle just performed gave no response and no error (R77, R79). -/
abbrev State.Silent (s : State) : Prop := s.rspValid = false ∧ s.rsp = 0x00000000#32 ∧ s.cmdErr = false

/-- `w_j = window[(cursor + j) mod 64]` (R30, R36). -/
def State.ageByte (s : State) (j : Nat) : Byte := s.readSlot (s.cursor + BitVec.ofNat 6 j)

/-- The window's bytes, oldest first (R36). -/
def State.ageOrder (s : State) : List Byte := (List.range 64).map s.ageByte

/-- The sum of `w + 31` over a list of bytes (R30). -/
def offsetSum : List Byte → Nat
  | [] => 0
  | b :: bs => (b.toNat + 31) + offsetSum bs

/-- The sum of `w + 31` weighted by place: the last byte has weight 1, the first the list's length (R30). -/
def weightedSum : List Byte → Nat
  | [] => 0
  | b :: bs => (bs.length + 1) * (b.toNat + 31) + weightedSum bs

/-- The closed form of the accumulators (R30), with its constant 60512 (90_conflicts.md C1). -/
def State.ClosedForm (s : State) : Prop :=
  s.sum1 = BitVec.ofNat 32 (offsetSum s.ageOrder) ∧ s.sum2 = BitVec.ofNat 32 (60512 + weightedSum s.ageOrder)

/-- The last 64 bytes of a stream, with older zero bytes where it is shorter (R29, R36). -/
def lastWindow (stream : List Byte) : List Byte :=
  (List.replicate 64 0x00#8 ++ stream).drop stream.length

/-- The cycles of one ROLL for each byte of a stream, in order (R108). -/
def rollStream (stream : List Byte) : List PortInput := stream.map (fun b => commandCycle (.roll b))

/-- The run of one cycle for each of the inputs `xs`, from a state. -/
def runInputs (xs : List PortInput) (s : State) : Host.Outcome State Fault Refusal :=
  Host.Core.run Sys2Proof.core xs.length (s.withInputs xs)

/-- The states that some sequence of inputs produces from the reset state (glossary of 00_scope.md). -/
inductive State.Reachable : State → Prop where
  | afterReset (xs : List PortInput) : State.Reachable (State.reset.withInputs xs)
  | afterStep {s t : State} : State.Reachable s → step s = .next t → State.Reachable t

/-- The cycle may change the architectural state: a reset, a CREATE or a ROLL (R73's table, R79). -/
def PortInput.changesState (x : PortInput) : Bool :=
  x.rst || (x.cmdValid && (opField x.cmd == 0x1#4 || opField x.cmd == 0x2#4))

/-- The cycle's command is a query, so the cycle has a response (R77). -/
def PortInput.isQuery (x : PortInput) : Bool :=
  !x.rst && x.cmdValid && (opField x.cmd == 0x4#4 || opField x.cmd == 0x5#4 || opField x.cmd == 0x6#4)

/-- The cycle carries an illegal command (R76). -/
def PortInput.isIllegal (x : PortInput) : Bool :=
  !x.rst && x.cmdValid && !(decode x.cmd).wellFormed

/-- A well-formed stream of inputs: no reserved opcode (R187 (c)). -/
def wellFormedStream (xs : List PortInput) : Bool := xs.all (fun x => !x.isIllegal)

end Sys2Proof.Machine
end

