-- ==== Sys2Proof/Certificates/Slice0/Obligations.lean ====
section
/-! DEFINITION. The statements for the provers, from the numbered rules of spec/. Where a statement speaks of the ports
`rsp_valid`, `rsp`, `cmd_err` of a cycle, it reads them in the state after that cycle (log 2); `inputs` are the port values
the host drives in the coming cycles (log 1). -/

open Sys2Proof Sys2Proof.Machine

/-! ### Reset and CREATE -/

/-- R32 (its `cursor = 0` is the spec's decision D11). The state after reset, after every CREATE and after every cycle of
`rst = 1` is `S0`; the last three clauses are the reference values of R32's table. -/
def Obligations.ResetAndCreateGiveInitialState : Prop :=
  let isS0 := fun t : State =>
    (∀ a : SlotAddr, t.readSlot a = 0x00#8) ∧ t.cursor = 0#6 ∧ t.sum1 = 0x000007C0#32 ∧ t.sum2 = 0x0001E840#32 ∧
      t.digestO = 0x07C0E840#32 ∧ t.vbitsO = 16#6 ∧ t.splitO = false
  isS0 State.reset ∧ (∀ s, ∃ t, exec .create s = .next t ∧ isS0 t) ∧
    ∀ s v w, ∃ t, cycle { rst := true, cmdValid := v, cmd := w } s = .next t ∧ isS0 t

/-- R100. CREATE completes in every state and gives the initial state; its data bits are ignored; a cycle of `rst = 1` has
the same effect. -/
def Obligations.CreateGivesInitialState : Prop :=
  (∀ s : State, exec .create s = .next { s with
      window := [], cursor := 0#6, sum1 := 0x000007C0#32, sum2 := 0x0001E840#32,
      rspValid := false, rsp := 0#32, cmdErr := false }) ∧
    (∀ (s : State) (a : SlotAddr), ∃ t, exec .create s = .next t ∧ t.readSlot a = 0x00#8) ∧
    (∀ d : Byte, decode (0x1#4 ++ d) = .create) ∧ encode .create = 0x100#12 ∧
    ∀ s v w, cycle { rst := true, cmdValid := v, cmd := w } s = exec .create s

/-- R180 (the spec's decisions D3, D19). `rst` and CREATE give bit for bit the same state, which depends on nothing that was
in the instance before, and `rst` wins over any command of the same cycle. -/
def Obligations.ResetAndCreateAgreeAndForgetState : Prop :=
  ∀ (s s' : State) (v : Bool) (w : CmdWord),
    cycle { rst := true, cmdValid := v, cmd := w } s = exec .create s ∧
      exec .create s = .next (State.reset.withInputs s.inputs) ∧
      exec .create (s'.withInputs s.inputs) = exec .create s

/-- R181 (the spec's decision D12). From the unspecified power-on state, whose bits are free values (log 6), one cycle of
`rst = 1` or one CREATE gives exactly the reset state; so it does from every state. -/
def Obligations.PowerOnNeedsOneResetOrCreate : Prop :=
  (∀ v w, cycle { rst := true, cmdValid := v, cmd := w } State.powerOn = .next State.reset) ∧
    exec .create State.powerOn = .next State.reset ∧
    ∀ s v w, cycle { rst := true, cmdValid := v, cmd := w } s = .next (State.reset.withInputs s.inputs)

/-- R79 (the spec's decisions D3, D24). Reset and idle cycles ignore `cmd`. -/
def Obligations.ResetAndIdleCycles : Prop :=
  (∀ (s : State) (v : Bool) (w : CmdWord), cycle { rst := true, cmdValid := v, cmd := w } s = .next { s with
      window := [], cursor := 0#6, sum1 := 0x000007C0#32, sum2 := 0x0001E840#32,
      rspValid := false, rsp := 0#32, cmdErr := false }) ∧
    ∀ (s : State) (w : CmdWord), cycle { rst := false, cmdValid := false, cmd := w } s =
      .next { s with rspValid := false, rsp := 0#32, cmdErr := false }

/-! ### Decoding and encoding -/

/-- Words of 95_test_vectors.md section 2.5, written out from the encoding of 30_encoding.md. Section 2.5 lists 0x300, 0x700,
0x800 and 0xF55 as IllegalCommand; the constructors they decode to are THE MODEL'S CHOICE (log 8, DEDUCED). -/
def Obligations.CommandWordsDecodeAsListed : Prop :=
  decode 0x000#12 = .nop ∧ decode 0x0FF#12 = .nop ∧ decode 0x1AA#12 = .create ∧ decode 0x241#12 = .roll 0x41#8 ∧
    decode 0x2FF#12 = .roll 0xFF#8 ∧ decode 0x300#12 = .reserved3 ∧ decode 0x4C3#12 = .digest ∧
    decode 0x500#12 = .vbits ∧ decode 0x600#12 = .onsplit ∧ decode 0x700#12 = .reserved7 ∧
    decode 0x800#12 = .reserved8 ∧ decode 0xF55#12 = .reservedF

/-- Encode then decode is the identity on every command, with every operand. For the six commands this is 30_encoding.md
section 9's; for the ten reserved opcodes, which section 9 does not decode, the constructor and the word the encoder writes
for it are THE MODEL'S CHOICE (log 8, DEDUCED). -/
def Obligations.DecodeEncodeIsIdentity : Prop := ∀ i : Instr, decode (encode i) = i

/-- Decode then encode is the identity on exactly the words of ROLL and those with `data = 0x00`. For the six commands these
are the canonical words of 30_encoding.md section 9. For the ten reserved opcodes it is THE MODEL'S CHOICE (log 8, DEDUCED):
section 9 decodes them to nothing and the spec gives them no canonical word; the model decodes each to a constructor of its
own and encodes that with `data = 0x00`. -/
def Obligations.EncodeDecodeIsIdentityOnCanonicalWords : Prop :=
  ∀ w : CmdWord, encode (decode w) = w ↔ (opField w = 0x2#4 ∨ dataField w = 0x00#8)

/-- Every word keeps its opcode through decode and encode: no opcode falls to a neighbour's command (R73's table). That a
reserved opcode decodes to a constructor which is encoded again is the model's choice (log 8). -/
def Obligations.DecodeKeepsEveryOpcode : Prop :=
  ∀ w : CmdWord, (decode w).opcode = opField w ∧ encode (decode w) &&& 0xF00#12 = w &&& 0xF00#12

/-- ROLL's operand is `cmd[7:0]`, zero-extended in the arithmetic and stored unchanged; every other command ignores
`cmd[7:0]`, and the encoder writes 0x00 there (30_encoding.md section 3). For the ten reserved opcodes, to which the spec gives
no canonical word, the constructor and its encoding with 0x00 are THE MODEL'S CHOICE (log 8, DEDUCED). -/
def Obligations.OnlyRollUsesDataBits : Prop :=
  (∀ d : Byte, decode (0x2#4 ++ d) = .roll d) ∧
    (∀ (op : Opcode) (d d' : Byte), op ≠ 0x2#4 → decode (op ++ d) = decode (op ++ d')) ∧
    (∀ i : Instr, (∀ d, i ≠ .roll d) → dataField (encode i) = 0x00#8) ∧
    ∀ (d : Byte) (s : State), ∃ t, exec (.roll d) s = .next t ∧ t.readSlot s.cursor = d ∧
      t.sum1 = s.sum1 + d.setWidth 32 - (s.readSlot s.cursor).setWidth 32

/-! ### A step -/

/-- A cycle with `rst = 0` and `cmd_valid = 1` runs the decoded command, on the state with that cycle's inputs taken off
(R72; log 1). -/
def Obligations.StepRunsDecodedCommand : Prop :=
  ∀ (s : State) (x : PortInput) (xs : List PortInput), s.inputs = x :: xs → x.rst = false → x.cmdValid = true →
    step s = exec (decode x.cmd) { s with inputs := xs }

/-- THE MODEL'S CHOICE (log 3), after R188: when the host has presented nothing more, the cycle is idle and the
architectural state stays as it is. -/
def Obligations.StepWithNothingPresentedIsIdle : Prop :=
  ∀ s : State, s.inputs = [] → step s = .next { s with rspValid := false, rsp := 0#32, cmdErr := false }

/-- The word the host's interface presents is the command that the next step runs (log 9; a reserved opcode's word is the
model's choice, log 8). -/
def Obligations.PresentedWordRunsItsCommand : Prop :=
  ∀ (i : Instr) (s : State) (n : Nat), 12 ≤ n →
    step (s.withFetchWord n (encode i).toNat) = exec i { s with inputs := s.inputs.tail }

/-- R80, the complete step function: every combination of `rst`, `cmd_valid` and `cmd` has its one row. -/
def Obligations.StepIsTheCompleteStepFunction : Prop :=
  ∀ (s : State) (x : PortInput) (xs : List PortInput), step (s.withInputs (x :: xs)) =
    let S := s.withInputs xs
    let S0 := { S with window := [], cursor := 0#6, sum1 := 0x000007C0#32, sum2 := 0x0001E840#32 }
    let row := fun (S : State) (v : Bool) (r : Word) (e : Bool) =>
      (Host.Outcome.next { S with rspValid := v, rsp := r, cmdErr := e } : Host.Outcome State Fault Refusal)
    let op := x.cmd.extractLsb' 8 4
    if x.rst = true then row S0 false 0#32 false
    else if x.cmdValid = false then row S false 0#32 false
    else if op = 0x0#4 then row S false 0#32 false
    else if op = 0x1#4 then row S0 false 0#32 false
    else if op = 0x2#4 then row (S.roll (x.cmd.extractLsb' 0 8)) false 0#32 false
    else if op = 0x4#4 then row S true (digest S.sum1 S.sum2) false
    else if op = 0x5#4 then row S true ((vbits S.sum1 S.sum2).setWidth 32) false
    else if op = 0x6#4 then row S true (if onSplit S.sum2 then 1#32 else 0#32) false
    else row S false 0#32 true

/-- Every step answers a next state, and so does every run: each command is accepted and completes, and there is no
terminal state (30_encoding.md section 2, 70_reset_and_hazards.md section 5). -/
def Obligations.EveryRunGoesOn : Prop :=
  (∀ s : State, ∃ t, step s = .next t) ∧ ∀ (n : Nat) (s : State), ∃ t, Host.Core.run Sys2Proof.core n s = .next t

/-- A run over two lists of inputs is the run over the first and then the run over the second: each cycle sees the complete
effect of all earlier ones (20_memory.md section 4). -/
def Obligations.RunsTakeEffectInOrder : Prop :=
  ∀ (xs ys : List PortInput) (s : State), ∃ t,
    runInputs xs s = .next t ∧ runInputs (xs ++ ys) s = runInputs ys t

/-- What the output ports showed in earlier cycles has no influence: nothing is latched (10_state.md sections 3, R25, R28 in
part; 30_encoding.md section 4). -/
def Obligations.OutputsAreNotLatched : Prop :=
  ∀ (s : State) (v : Bool) (r : Word) (e : Bool), step { s with rspValid := v, rsp := r, cmdErr := e } = step s

/-! ### NOP, ROLL, UPDATE -/

/-- R103 (the spec's decision D6). NOP does nothing, in every state, and is exactly an idle cycle. -/
def Obligations.NopIsAnIdleCycle : Prop :=
  (∀ s : State, exec .nop s = .next { s with rspValid := false, rsp := 0#32, cmdErr := false }) ∧
    (∀ d : Byte, decode (0x0#4 ++ d) = .nop) ∧ encode .nop = 0x000#12 ∧
    ∀ (s : State) (d : Byte) (w : CmdWord),
      cycle { rst := false, cmdValid := true, cmd := 0x0#4 ++ d } s = cycle { rst := false, cmdValid := false, cmd := w } s

/-- R102, R55. ROLL completes with every byte in every state; the dropped byte is the old content of the slot at the
effective address; every byte of the window but the one stored there is as before; the cursor wraps from 63 to 0. -/
def Obligations.RollUpdatesStoresAndAdvances : Prop :=
  ∀ (b : Byte) (s : State),
    encode (.roll b) = 0x200#12 + b.setWidth 12 ∧ decode (0x200#12 + b.setWidth 12) = .roll b ∧
    ∃ t, exec (.roll b) s = .next t ∧
      (let dropped := s.readSlot s.cursor
       t.sum1 = s.sum1 + b.setWidth 32 - dropped.setWidth 32 ∧
         t.sum2 = s.sum2 + t.sum1 - 64#32 * (dropped.setWidth 32 + 31#32)) ∧
      (∀ a : Nat, t.window.read a = if a = s.effectiveAddress.toNat then b else s.window.read a) ∧
      t.readSlot s.cursor = b ∧ (∀ a : SlotAddr, a ≠ s.cursor → t.readSlot a = s.readSlot a) ∧
      t.cursor.toNat = (s.cursor.toNat + 1) % 64 ∧ t.inputs = s.inputs ∧ t.Silent

/-- UPDATE computes both sums exactly and reduces modulo 2^32, in whatever order the terms are taken
(00_scope.md section 6.2, 40_create_update_roll.md sections 2 and 5). -/
def Obligations.UpdateIsExactModulo2Pow32 : Prop :=
  ∀ (s1 s2 : Word) (d b : Byte),
    (((update s1 s2 d b).1.toNat : Int) = ((s1.toNat : Int) + b.toNat - d.toNat) % 2 ^ 32) ∧
    (((update s1 s2 d b).2.toNat : Int) =
      ((s2.toNat : Int) + (update s1 s2 d b).1.toNat - 64 * (d.toNat + 31)) % 2 ^ 32)

/-- R106 (the spec's decision D13). The `sum1` on the right of the `sum2` assignment is the new one; the other reading
differs exactly when the new byte is not the dropped one; R106's worked numbers. -/
def Obligations.UpdateReadsTheNewSum1 : Prop :=
  (∀ (s1 s2 : Word) (d b : Byte),
    (update s1 s2 d b).2 = s2 + (update s1 s2 d b).1 - 64#32 * (d.setWidth 32 + 31#32) ∧
      ((update s1 s2 d b).2 = s2 + s1 - 64#32 * (d.setWidth 32 + 31#32) ↔ b = d)) ∧
    ∃ t, exec (.roll 0x41#8) State.reset = .next t ∧ t.sum2 = 0x0001E881#32

/-- Zero-roll fixed point (40_create_update_roll.md section 6): with a zero byte dropped and `sum1 = 1984`, ROLL 0x00 leaves
both sums; from the reset state any number of them changes only the cursor, and 64 of them give back the reset state in
every bit. -/
def Obligations.ZeroRollsAreAFixedPoint : Prop :=
  (∀ s : State, s.readSlot s.cursor = 0x00#8 → s.sum1 = 1984#32 →
    ∃ t, exec (.roll 0x00#8) s = .next t ∧ t.sum1 = s.sum1 ∧ t.sum2 = s.sum2) ∧
  (∀ n : Nat, runInputs (rollStream (List.replicate n 0x00#8)) State.reset =
    .next { State.reset with cursor := BitVec.ofNat 6 n }) ∧
  runInputs (rollStream (List.replicate 64 0x00#8)) State.reset = .next State.reset

/-! ### The queries -/

/-- R130. The digest, by its formula, bit by bit and as a number. -/
def Obligations.DigestIsLowHalvesOfBothSums : Prop :=
  ∀ s1 s2 : Word,
    digest s1 s2 = (s1 <<< 16) ||| (s2 &&& 0xFFFF#32) ∧
    (digest s1 s2).extractLsb' 16 16 = s1.extractLsb' 0 16 ∧
    (digest s1 s2).extractLsb' 0 16 = s2.extractLsb' 0 16 ∧
    (digest s1 s2).toNat = s1.toNat % 65536 * 65536 + s2.toNat % 65536

/-- R132 (the spec's decision D14). `vbits` is 13 plus the largest `k` of 0 to 19 with `digest[12 + k : 13]` all ones; the
bits examined are `sum2[15:13]` and then `sum1[15:0]`. -/
def Obligations.VbitsCountsOnesFromDigestBit13 : Prop :=
  ∀ s1 s2 : Word,
    (vbits s1 s2).toNat = 13 + cto (digest s1 s2 >>> 13) ∧
    (∃ k ≤ 19, (vbits s1 s2).toNat = 13 + k ∧ (∀ i < k, (digest s1 s2).getLsbD (13 + i) = true) ∧
      (k < 19 → (digest s1 s2).getLsbD (13 + k) = false)) ∧
    (∀ i < 3, (digest s1 s2).getLsbD (13 + i) = s2.getLsbD (13 + i)) ∧
    (∀ j < 16, (digest s1 s2).getLsbD (16 + j) = s1.getLsbD j)

/-- R134. The boundary predicate is true exactly when the low 13 bits of `sum2` are all ones. -/
def Obligations.OnSplitTestsLow13BitsOfSum2 : Prop :=
  ∀ s2 : Word,
    (onSplit s2 = true ↔ s2 &&& 0x1FFF#32 = 0x1FFF#32) ∧ (onSplit s2 = true ↔ s2.extractLsb' 0 13 = 0x1FFF#13) ∧
      (onSplit s2 = true ↔ ∀ i < 13, s2.getLsbD i = true) ∧ (onSplit s2 = true ↔ s2.toNat % 8192 = 8191)

/-- R131. DIGEST completes in every state, responds with the digest and changes nothing; asked again it answers the same;
0x07C0E840 in `S0`; bit 31 is 0 in reachable states. -/
def Obligations.DigestRespondsAndChangesNothing : Prop :=
  (∀ s : State, exec .digest s =
    .next { s with rspValid := true, rsp := digest s.sum1 s.sum2, cmdErr := false }) ∧
  (∀ d : Byte, decode (0x4#4 ++ d) = .digest) ∧ encode .digest = 0x400#12 ∧
  (∀ s : State, ∃ t u, exec .digest s = .next t ∧ exec .digest t = .next u ∧ u.rsp = t.rsp) ∧
  (∃ t, exec .digest State.reset = .next t ∧ t.rsp = 0x07C0E840#32) ∧
  ∀ s : State, s.Reachable → ∃ t, exec .digest s = .next t ∧ t.rsp.getLsbD 31 = false

/-- R133. VBITS completes in every state and responds with `vbits`, zero-extended, never below 13 and never above 32;
nothing changes. -/
def Obligations.VbitsRespondsAndChangesNothing : Prop :=
  (∀ s : State, exec .vbits s =
    .next { s with rspValid := true, rsp := (vbits s.sum1 s.sum2).setWidth 32, cmdErr := false }) ∧
  (∀ d : Byte, decode (0x5#4 ++ d) = .vbits) ∧ encode .vbits = 0x500#12 ∧
  ∀ s : State, ∃ t, exec .vbits s = .next t ∧ t.rsp.extractLsb' 0 6 = vbits s.sum1 s.sum2 ∧
    t.rsp.extractLsb' 6 26 = 0#26 ∧ 13 ≤ t.rsp.toNat ∧ t.rsp.toNat ≤ 32

/-- R135. ONSPLIT completes in every state and responds with the predicate in bit 0; nothing changes; 0 in `S0`. -/
def Obligations.OnsplitRespondsAndChangesNothing : Prop :=
  (∀ s : State, exec .onsplit s =
    .next { s with rspValid := true, rsp := if onSplit s.sum2 then 1#32 else 0#32, cmdErr := false }) ∧
  (∀ d : Byte, decode (0x6#4 ++ d) = .onsplit) ∧ encode .onsplit = 0x600#12 ∧
  (∀ s : State, ∃ t, exec .onsplit s = .next t ∧ t.rsp.getLsbD 0 = onSplit s.sum2 ∧ t.rsp.extractLsb' 1 31 = 0#31) ∧
  ∃ t, exec .onsplit State.reset = .next t ∧ t.rsp = 0#32

/-- R136. The queries read `sum1` and `sum2` alone, change no attribute, never fail, and asked twice in the same state give
the same answer. -/
def Obligations.QueriesArePureFunctionsOfTheSums : Prop :=
  ∀ i ∈ [Instr.digest, Instr.vbits, Instr.onsplit], ∀ s s' : State, s.sum1 = s'.sum1 → s.sum2 = s'.sum2 →
    ∃ t t' u, exec i s = .next t ∧ exec i s' = .next t' ∧ exec i t = .next u ∧ t.rsp = t'.rsp ∧ u.rsp = t.rsp ∧
      t.SameArch s ∧ t.inputs = s.inputs ∧ t.rspValid = true ∧ t.cmdErr = false

/-- Relation between the queries (41_digest_vbits_onsplit.md section 4): the predicate is read off the digest, and where it
is true, `vbits` is the digest's count of trailing ones. -/
def Obligations.OnSplitAndVbitsReadTheDigest : Prop :=
  ∀ s1 s2 : Word, (onSplit s2 = true ↔ (digest s1 s2).extractLsb' 0 13 = 0x1FFF#13) ∧
    (onSplit s2 = true → (vbits s1 s2).toNat = cto (digest s1 s2))

/-- The upper halves of both sums reach no query (41_digest_vbits_onsplit.md section 4). -/
def Obligations.UpperHalvesReachNoQuery : Prop :=
  ∀ s1 s1' s2 s2' : Word, s1.extractLsb' 0 16 = s1'.extractLsb' 0 16 → s2.extractLsb' 0 16 = s2'.extractLsb' 0 16 →
    digest s1 s2 = digest s1' s2' ∧ vbits s1 s2 = vbits s1' s2' ∧ onSplit s2 = onSplit s2'

/-- R77 (the spec's decision D9). The response of a cycle: valid exactly in a query's cycle, computed from the state before
the edge, and 0 otherwise. -/
def Obligations.ResponseOfEveryCycle : Prop :=
  ∀ (s : State) (x : PortInput), ∃ t, cycle x s = .next t ∧
    (t.rspValid = true ↔ (x.rst = false ∧ x.cmdValid = true ∧ decode x.cmd ∈ [Instr.digest, Instr.vbits, Instr.onsplit])) ∧
    (t.rspValid = false → t.rsp = 0#32) ∧
    (x.rst = false → x.cmdValid = true →
      (decode x.cmd = .digest → t.rsp = digest s.sum1 s.sum2) ∧
      (decode x.cmd = .vbits → t.rsp = (vbits s.sum1 s.sum2).setWidth 32) ∧
      (decode x.cmd = .onsplit → t.rsp = if onSplit s.sum2 then 1#32 else 0#32))

/-- R78 (the spec's decision D10). The status outputs are the three functions of the current state whatever the inputs are;
a query and its status output agree in the same cycle; after a ROLL the next cycle shows the result of that byte. -/
def Obligations.StatusOutputsFollowTheState : Prop :=
  (∀ (s : State) (xs : List PortInput), (s.withInputs xs).digestO = digest s.sum1 s.sum2 ∧
    (s.withInputs xs).vbitsO = vbits s.sum1 s.sum2 ∧ (s.withInputs xs).splitO = onSplit s.sum2) ∧
  (∀ s : State, ∃ t u v, exec .digest s = .next t ∧ t.rsp = s.digestO ∧ exec .vbits s = .next u ∧
    u.rsp = s.vbitsO.setWidth 32 ∧ exec .onsplit s = .next v ∧ v.rsp = if s.splitO then 1#32 else 0#32) ∧
  ∀ (s : State) (b : Byte), ∃ t, exec (.roll b) s = .next t ∧ t.splitO = onSplit (s.roll b).sum2

/-! ### Illegal commands -/

/-- R76, R161 (the spec's decisions D8, D28). The ten reserved opcodes raise IllegalCommand, cause code 1: they complete with
the state unchanged, no response and `cmd_err = 1`; and the `cmd_err` of a cycle depends on that cycle's inputs alone. -/
def Obligations.ReservedOpcodesRaiseIllegalCommand : Prop :=
  (∀ s : State, ∀ i ∈ [Instr.reserved3, .reserved7, .reserved8, .reserved9, .reservedA, .reservedB, .reservedC, .reservedD,
      .reservedE, .reservedF],
    exec i s = .next { s with rspValid := false, rsp := 0#32, cmdErr := true } ∧
      exec i s = .next (s.takeException (.illegalCommand i.opcode))) ∧
  (∀ w : CmdWord, (decode w).wellFormed = false ↔
    opField w ∈ [0x3#4, 0x7#4, 0x8#4, 0x9#4, 0xA#4, 0xB#4, 0xC#4, 0xD#4, 0xE#4, 0xF#4]) ∧
  (∀ op : Opcode, (Exception.illegalCommand op).code = 1) ∧
  ∀ (s : State) (x : PortInput), ∃ t, cycle x s = .next t ∧
    (t.cmdErr = true ↔ (x.rst = false ∧ x.cmdValid = true ∧ (decode x.cmd).wellFormed = false))

/-- R160. The six commands never raise anything, in any state. -/
def Obligations.LegalCommandsNeverRaise : Prop :=
  ∀ (i : Instr) (s : State), i.wellFormed = true → ∃ t, exec i s = .next t ∧ t.cmdErr = false

/-- A run over a well-formed stream of inputs, one without a reserved opcode, ends in a cycle without an error
(60_exceptions.md section 7, 70_reset_and_hazards.md section 3). -/
def Obligations.WellFormedStreamsRaiseNothing : Prop :=
  ∀ (s : State) (xs : List PortInput), xs ≠ [] → wellFormedStream xs = true →
    ∃ t, runInputs xs s = .next t ∧ t.cmdErr = false

/-! ### What changes what -/

/-- Only ROLL, at the slot `cursor`, and CREATE and reset, at all 64 slots, write the window (20_memory.md section 1). What
ROLL reads of it is in `RollUpdatesStoresAndAdvances`, and that the queries read none of it in
`QueriesArePureFunctionsOfTheSums`. -/
def Obligations.OnlyRollCreateAndResetWriteTheWindow : Prop :=
  (∀ (i : Instr) (s : State), i ≠ .create → (∀ b, i ≠ .roll b) →
    ∃ t, exec i s = .next t ∧ ∀ a : Nat, t.window.read a = s.window.read a) ∧
  (∀ (b : Byte) (s : State), ∃ t, exec (.roll b) s = .next t ∧
    ∀ a : SlotAddr, t.readSlot a = if a = s.cursor then b else s.readSlot a) ∧
  ∀ (s : State) (v : Bool) (w : CmdWord) (a : SlotAddr),
    (∃ t, exec .create s = .next t ∧ t.readSlot a = 0x00#8) ∧
      ∃ t, cycle { rst := true, cmdValid := v, cmd := w } s = .next t ∧ t.readSlot a = 0x00#8

/-- R22. The cursor advances by one, modulo 64, per ROLL; reset and CREATE set it to its reset value; nothing else writes
it. -/
def Obligations.CursorAdvancesOncePerRoll : Prop :=
  ∀ (s : State) (x : PortInput), ∃ t, cycle x s = .next t ∧
    t.cursor.toNat =
      if x.rst = true then 0
      else if x.cmdValid = false then s.cursor.toNat
      else match decode x.cmd with
        | .roll _ => (s.cursor.toNat + 1) % 64
        | .create => 0
        | _ => s.cursor.toNat

/-- The frame of every cycle that is neither a reset nor a CREATE nor a ROLL: no attribute changes
(10_state.md section 1, the column "Written by"). -/
def Obligations.OtherCyclesChangeNoAttribute : Prop :=
  ∀ (s : State) (x : PortInput), x.changesState = false →
    ∃ t, cycle x s = .next t ∧ t.SameArch s ∧ t.inputs = s.inputs

/-- Idle cycles, NOPs, queries and illegal commands are invisible: taking them all out of a run leaves the four attributes
at its end as they are (30_encoding.md section 2, 60_exceptions.md section 4). -/
def Obligations.CyclesThatChangeNothingAreInvisible : Prop :=
  ∀ (s : State) (xs : List PortInput), ∃ t u, runInputs xs s = .next t ∧
    runInputs (xs.filter PortInput.changesState) s = .next u ∧ t.SameArch u

/-- R140. Two instances, whatever they did before, give the same outputs at every position when each is created and then fed
the same inputs. -/
def Obligations.FreshInstancesAgree : Prop :=
  ∀ (s s' : State) (xs : List PortInput),
    runInputs (commandCycle .create :: xs) s = runInputs (commandCycle .create :: xs) s'

/-! ### Invariants and histories -/

/-- Every step keeps the window's canonical form (the model's representation, log 4). -/
def Obligations.StepKeepsWindowCanonical : Prop :=
  ∀ s t : State, s.window.wf = true → step s = .next t → t.window.wf = true

/-- The window has its canonical form at reset, and at power-on whatever its free bytes are (log 4, log 6). -/
def Obligations.ResetWindowIsCanonical : Prop :=
  State.reset.window.wf = true ∧ State.powerOn.window.wf = true

/-- Every step keeps the closed form of the accumulators (10_state.md section 4), from every state that has it. -/
def Obligations.StepKeepsClosedForm : Prop :=
  ∀ s t : State, s.ClosedForm → step s = .next t → t.ClosedForm

/-- The closed form holds at reset, whatever the host is about to drive. -/
def Obligations.ResetHasClosedForm : Prop := ∀ xs : List PortInput, (State.reset.withInputs xs).ClosedForm

/-- Every reachable state has the closed form (10_state.md section 4), and a canonical window: the second clause is about THE
MODEL'S representation of the window (log 4, DEDUCED), of which section 4 says nothing. -/
def Obligations.ReachableStatesMeetInvariants : Prop :=
  ∀ s : State, s.Reachable → s.ClosedForm ∧ s.window.wf = true

/-- The ranges of the sums in the states of the closed form (10_state.md section 4): no 32-bit wrap ever happens there. The
bounds are the values of the all-zero and the all-0xFF window. -/
def Obligations.ClosedFormBoundsTheSums : Prop :=
  (∀ s : State, s.ClosedForm →
    1984 ≤ s.sum1.toNat ∧ s.sum1.toNat ≤ 18304 ∧ 124992 ≤ s.sum2.toNat ∧ s.sum2.toNat ≤ 655392 ∧
      s.sum1.extractLsb' 15 17 = 0#17 ∧ s.sum2.extractLsb' 20 12 = 0#12) ∧
  (∀ s : State, s.ClosedForm → s.ageOrder = List.replicate 64 0x00#8 → s.sum1 = 1984#32 ∧ s.sum2 = 124992#32) ∧
  ∀ s : State, s.ClosedForm → s.ageOrder = List.replicate 64 0xFF#8 → s.sum1 = 18304#32 ∧ s.sum2 = 655392#32

/-- The range of `vbits` (41_digest_vbits_onsplit.md section 4): 13 to 32 for every pair of sums, at most 30 in the states of
the closed form, where `digest[31] = 0`; and 30 is attained in a reachable state. -/
def Obligations.VbitsRange : Prop :=
  (∀ s1 s2 : Word, 13 ≤ (vbits s1 s2).toNat ∧ (vbits s1 s2).toNat ≤ 32) ∧
  (∀ s : State, s.ClosedForm → s.vbitsO.toNat ≤ 30 ∧ s.digestO.getLsbD 31 = false) ∧
  ∃ s : State, s.Reachable ∧ s.vbitsO = 30#6 ∧ s.splitO = true

/-- One ROLL in age order (10_state.md section 7): the oldest byte leaves, the new byte is the youngest. -/
def Obligations.RollShiftsTheAgeOrder : Prop :=
  ∀ (b : Byte) (s : State), ∃ t, exec (.roll b) s = .next t ∧ t.ageOrder = s.ageOrder.tail ++ [b] ∧
    s.ageOrder.head? = some (s.readSlot s.cursor)

/-- After a CREATE and one ROLL per byte, the window in age order is the last 64 bytes of the stream, with older zero bytes
where it is shorter, and the cursor is the stream's length modulo 64 (10_state.md sections 4 and 7). -/
def Obligations.WindowHoldsTheLast64Bytes : Prop :=
  ∀ (s : State) (stream : List Byte), ∃ t,
    runInputs (commandCycle .create :: rollStream stream) s = .next t ∧ t.ageOrder = lastWindow stream ∧
      t.cursor.toNat = stream.length % 64

/-- History independence (40_create_update_roll.md section 6): two streams with the same last 64 bytes end with the same
sums and the same three queries. -/
def Obligations.HistoryBeyondTheWindowIsForgotten : Prop :=
  ∀ (s s' : State) (stream stream' : List Byte), lastWindow stream = lastWindow stream' →
    ∃ t t', runInputs (commandCycle .create :: rollStream stream) s = .next t ∧
      runInputs (commandCycle .create :: rollStream stream') s' = .next t' ∧
      t.sum1 = t'.sum1 ∧ t.sum2 = t'.sum2 ∧ t.digestO = t'.digestO ∧ t.vbitsO = t'.vbitsO ∧ t.splitO = t'.splitO

/-! ### The assembler -/

/-- R83 (the spec's decision D20). The pseudo-instructions and their expansions. -/
def Obligations.PseudoInstructionsExpand : Prop :=
  (∀ bs : List Byte, (AsmLine.feed (bs.map BitVec.toNat)).assemble = .ok (bs.map (fun b => commandCycle (.roll b)))) ∧
  (∀ codes : List Nat, (∀ c ∈ codes, c ≤ 127) → (AsmLine.feedText codes).assemble = (AsmLine.feed codes).assemble) ∧
  (∀ (b : Byte) (n : Nat), (AsmLine.feedRepeat b.toNat n).assemble = .ok (List.replicate n (commandCycle (.roll b)))) ∧
  (∀ b : Byte, (AsmLine.step b.toNat).assemble = .ok [commandCycle (.roll b), commandCycle .onsplit]) ∧
  (∀ n : Nat, ∃ xs, (AsmLine.idle n).assemble = .ok xs ∧ xs.length = n ∧ ∀ x ∈ xs, x.rst = false ∧ x.cmdValid = false) ∧
  (∃ x : PortInput, AsmLine.reset.assemble = .ok [x] ∧ x.rst = true) ∧
  ∀ w : CmdWord, (AsmLine.word w.toNat).assemble = .ok [{ rst := false, cmdValid := true, cmd := w }]

/-- A line assembles exactly when its operands are in range. 30_encoding.md section 8 makes a byte outside 0 to 255 an
assembly error; that a text with a character outside ASCII and a `.word` of 2^12 or more do not assemble is THE MODEL'S
CHOICE (log 14, DESIGN CHOICE). -/
def Obligations.LinesAssembleExactlyWhenWellFormed : Prop :=
  ∀ l : AsmLine, (∃ xs, l.assemble = .ok xs) ↔ l.wellFormed = true

/-- No line but `.word` emits a reserved opcode: what it assembles to is a well-formed stream (30_encoding.md section 8). -/
def Obligations.AssembledLinesAreWellFormedStreams : Prop :=
  ∀ (l : AsmLine) (xs : List PortInput), (∀ w, l ≠ .word w) → l.assemble = .ok xs → wellFormedStream xs = true
end

