-- ==== Sys2Proof/Laws/Decode.lean ====
section
/-! SUPPORT. The two fields of an encoded command, and the fields that make a word (R72). -/

namespace Sys2Proof

@[simp] theorem opField_append (op : Opcode) (data : Byte) : opField (op ++ data) = op := by
  revert op data
  decide

@[simp] theorem dataField_append (op : Opcode) (data : Byte) : dataField (op ++ data) = data := by
  revert op data
  decide

/-- A word is its two fields side by side. -/
theorem word_eq_fields (w : CmdWord) : w = opField w ++ dataField w := by
  revert w
  decide

end Sys2Proof
end

