-- ==== Sys2Proof/Laws/Memory.lean ====
section
/-! SUPPORT. The laws of the window as a memory: a read after a write, the canonical form kept by every operation, and
equal contents in canonical form are equal data. -/

namespace Sys2Proof.Machine

/-! ### Reading -/

theorem Memory.read_erase_same (m : Memory) (a : Nat) : (Memory.erase m a).read a = Memory.unlisted := by
  induction m with
  | nil => rfl
  | cons c rest ih =>
    by_cases h : c.1 = a
    · simpa [Memory.erase, h] using ih
    · simpa [Memory.erase, Memory.read, h] using ih

theorem Memory.read_erase_other {m : Memory} {a c : Nat} (h : c ≠ a) : (Memory.erase m a).read c = m.read c := by
  induction m with
  | nil => rfl
  | cons d rest ih =>
    by_cases hd : d.1 = a
    · have hne : ¬ d.1 = c := fun e => h (e.symm.trans hd)
      have hna : ¬ a = c := fun e => h e.symm
      simpa [Memory.erase, Memory.read, hd, hne, hna] using ih
    · by_cases hc : d.1 = c
      · simp [Memory.erase, Memory.read, hc, h]
      · simpa [Memory.erase, Memory.read, hd, hc] using ih

theorem Memory.read_insert_other {m : Memory} {a c : Nat} (b : Byte) (h : c ≠ a) :
    (Memory.insert a b m).read c = m.read c := by
  have h' : ¬ a = c := fun e => h e.symm
  induction m with
  | nil => simp [Memory.insert, Memory.read, h']
  | cons d rest ih =>
    by_cases hd : a < d.1
    · simp [Memory.insert, Memory.read, hd, h']
    · by_cases hc : d.1 = c
      · rw [Memory.insert, if_neg hd]
        simp [Memory.read, hc]
      · simpa [Memory.insert, Memory.read, hd, hc] using ih

theorem Memory.read_insert_same {m : Memory} {a : Nat} (b : Byte) (h : ∀ c ∈ m, c.1 ≠ a) :
    (Memory.insert a b m).read a = b := by
  induction m with
  | nil => simp [Memory.insert, Memory.read]
  | cons d rest ih =>
    have hda : ¬ d.1 = a := h d (by simp)
    by_cases hd : a < d.1
    · simp [Memory.insert, Memory.read, hd]
    · simpa [Memory.insert, Memory.read, hd, hda] using ih (fun c hc => h c (by simp [hc]))

/-- Everything a store does to what is read: the stored byte at its address, every other address as before. -/
theorem Memory.read_write (m : Memory) (a : Nat) (b : Byte) (c : Nat) :
    (m.write a b).read c = if c = a then b else m.read c := by
  by_cases hb : b = Memory.unlisted
  · by_cases hc : c = a
    · simp [Memory.write, hb, hc, Memory.read_erase_same]
    · simp [Memory.write, hb, hc, Memory.read_erase_other hc]
  · by_cases hc : c = a
    · subst hc
      have hno : ∀ d ∈ Memory.erase m c, d.1 ≠ c := by
        intro d hd
        simpa using (List.mem_filter.mp hd).2
      simp [Memory.write, hb, Memory.read_insert_same b hno]
    · simp [Memory.write, hb, hc, Memory.read_insert_other b hc, Memory.read_erase_other hc]

@[simp] theorem Memory.read_cleared (a : Nat) : Memory.cleared.read a = 0x00#8 := rfl

@[simp] theorem Memory.read_nil (a : Nat) : Memory.read [] a = 0x00#8 := rfl

/-! ### The canonical form -/

theorem Memory.wfFrom_cons {lo a : Nat} {b : Byte} {rest : Memory} :
    Memory.wfFrom lo ((a, b) :: rest) = true ↔
      lo ≤ a ∧ a < 64 ∧ b ≠ Memory.unlisted ∧ Memory.wfFrom (a + 1) rest = true := by
  simp only [Memory.wfFrom, Bool.and_eq_true, decide_eq_true_eq, and_assoc]
  exact Iff.rfl

theorem Memory.wfFrom_mono {lo lo' : Nat} {m : Memory} (h : Memory.wfFrom lo m = true) (hle : lo' ≤ lo) :
    Memory.wfFrom lo' m = true := by
  cases m with
  | nil => rfl
  | cons c rest =>
    obtain ⟨h1, h2⟩ := Memory.wfFrom_cons.mp h
    exact Memory.wfFrom_cons.mpr ⟨hle.trans h1, h2⟩

theorem Memory.wfFrom_erase {lo : Nat} {m : Memory} (a : Nat) (h : Memory.wfFrom lo m = true) :
    Memory.wfFrom lo (Memory.erase m a) = true := by
  induction m generalizing lo with
  | nil => rfl
  | cons c rest ih =>
    obtain ⟨h1, h2, h3, h4⟩ := Memory.wfFrom_cons.mp h
    by_cases hc : c.1 = a
    · simpa [Memory.erase, hc] using Memory.wfFrom_mono (ih h4) (by omega)
    · have he : Memory.erase (c :: rest) a = c :: Memory.erase rest a := by simp [Memory.erase, hc]
      rw [he]
      exact Memory.wfFrom_cons.mpr ⟨h1, h2, h3, ih h4⟩

theorem Memory.wfFrom_insert {lo a : Nat} {b : Byte} {m : Memory} (h : Memory.wfFrom lo m = true)
    (hlo : lo ≤ a) (ha : a < 64) (hb : b ≠ Memory.unlisted) (hno : ∀ c ∈ m, c.1 ≠ a) :
    Memory.wfFrom lo (Memory.insert a b m) = true := by
  induction m generalizing lo with
  | nil => exact Memory.wfFrom_cons.mpr ⟨hlo, ha, hb, rfl⟩
  | cons c rest ih =>
    obtain ⟨h1, h2, h3, h4⟩ := Memory.wfFrom_cons.mp h
    have hca : c.1 ≠ a := hno c (by simp)
    by_cases hlt : a < c.1
    · rw [Memory.insert, if_pos hlt]
      exact Memory.wfFrom_cons.mpr ⟨hlo, ha, hb, Memory.wfFrom_cons.mpr ⟨hlt, h2, h3, h4⟩⟩
    · rw [Memory.insert, if_neg hlt]
      exact Memory.wfFrom_cons.mpr ⟨h1, h2, h3, ih h4 (by omega) (fun d hd => hno d (by simp [hd]))⟩

/-- A store within the window keeps the canonical form. -/
theorem Memory.wf_write {m : Memory} {a : Nat} (b : Byte) (h : m.wf = true) (ha : a < 64) :
    (m.write a b).wf = true := by
  unfold Memory.write
  split
  · exact Memory.wfFrom_erase a h
  · rename_i hb
    refine Memory.wfFrom_insert (Memory.wfFrom_erase a h) (Nat.zero_le a) ha hb ?_
    intro d hd
    simpa using (List.mem_filter.mp hd).2

@[simp] theorem Memory.wf_cleared : Memory.cleared.wf = true := rfl

/-- A store by slot address is always within the window (R52). -/
theorem State.wf_writeSlot {s : State} (a : SlotAddr) (b : Byte) (h : s.window.wf = true) :
    (s.writeSlot a b).window.wf = true :=
  Memory.wf_write b h a.isLt

/-- The power-on window has the canonical form too. -/
theorem Memory.wf_filled (f : Nat → Byte) {n : Nat} (hn : n ≤ 64) : (Memory.filled f n).wf = true := by
  induction n with
  | zero => rfl
  | succ k ih => exact Memory.wf_write (f k) (ih (by omega)) (by omega)

theorem Memory.read_filled (f : Nat → Byte) (n a : Nat) (h : a < n) : (Memory.filled f n).read a = f a := by
  induction n with
  | zero => omega
  | succ k ih =>
    rw [Memory.filled, Memory.read_write]
    split
    · rename_i e
      rw [e]
    · exact ih (by omega)

/-! ### Equal contents are equal data -/

theorem Memory.read_of_wfFrom_lt {lo a : Nat} {m : Memory} (h : Memory.wfFrom lo m = true) (ha : a < lo) :
    m.read a = Memory.unlisted := by
  induction m generalizing lo with
  | nil => rfl
  | cons c rest ih =>
    obtain ⟨h1, -, -, h4⟩ := Memory.wfFrom_cons.mp h
    have hca : ¬ c.1 = a := by omega
    simpa [Memory.read, hca] using ih h4 (by omega)

theorem Memory.eq_of_wfFrom {lo : Nat} {m n : Memory} (hm : Memory.wfFrom lo m = true) (hn : Memory.wfFrom lo n = true)
    (h : ∀ a, m.read a = n.read a) : m = n := by
  induction m generalizing lo n with
  | nil =>
    cases n with
    | nil => rfl
    | cons d rest =>
      obtain ⟨-, -, h3, -⟩ := Memory.wfFrom_cons.mp hn
      have := h d.1
      simp [Memory.read] at this
      exact absurd this.symm h3
  | cons c rest ih =>
    obtain ⟨-, -, c3, c4⟩ := Memory.wfFrom_cons.mp hm
    cases n with
    | nil =>
      have := h c.1
      simp [Memory.read] at this
      exact absurd this c3
    | cons d rest' =>
      obtain ⟨-, -, d3, d4⟩ := Memory.wfFrom_cons.mp hn
      have hcd : c.1 = d.1 := by
        rcases Nat.lt_trichotomy c.1 d.1 with hlt | heq | hgt
        · have e := h c.1
          have hne : ¬ d.1 = c.1 := by omega
          simp only [Memory.read, if_true, hne, if_false] at e
          exact absurd (e.trans (Memory.read_of_wfFrom_lt d4 (by omega))) c3
        · exact heq
        · have e := h d.1
          have hne : ¬ c.1 = d.1 := by omega
          simp only [Memory.read, if_true, hne, if_false] at e
          exact absurd (e.symm.trans (Memory.read_of_wfFrom_lt c4 (by omega))) d3
      have hb : c.2 = d.2 := by
        have e := h c.1
        simpa [Memory.read, hcd] using e
      have hrest : rest = rest' := by
        rw [hcd] at c4
        refine ih c4 d4 ?_
        intro a
        by_cases ha : a < d.1 + 1
        · rw [Memory.read_of_wfFrom_lt c4 ha, Memory.read_of_wfFrom_lt d4 ha]
        · have e := h a
          have h1 : ¬ c.1 = a := by omega
          have h2 : ¬ d.1 = a := by omega
          simpa [Memory.read, h1, h2] using e
      rw [hrest, Prod.ext hcd hb]

/-- Two windows in canonical form with the same contents are the same data. -/
theorem Memory.eq_of_wf {m n : Memory} (hm : m.wf = true) (hn : n.wf = true) (h : ∀ a, m.read a = n.read a) : m = n :=
  Memory.eq_of_wfFrom hm hn h

end Sys2Proof.Machine
end

