-- ==== Sys2Proof/Laws/State.lean ====
section
/-! SUPPORT. One lemma for each field under each update of a state, so that no proof unfolds a record update. -/

namespace Sys2Proof.Machine

/-! ### drivePorts -/

@[simp] theorem State.drivePorts_window (s : State) (v : Bool) (x : Word) (e : Bool) : (s.drivePorts v x e).window = s.window := rfl

@[simp] theorem State.drivePorts_cursor (s : State) (v : Bool) (x : Word) (e : Bool) : (s.drivePorts v x e).cursor = s.cursor := rfl

@[simp] theorem State.drivePorts_sum1 (s : State) (v : Bool) (x : Word) (e : Bool) : (s.drivePorts v x e).sum1 = s.sum1 := rfl

@[simp] theorem State.drivePorts_sum2 (s : State) (v : Bool) (x : Word) (e : Bool) : (s.drivePorts v x e).sum2 = s.sum2 := rfl

@[simp] theorem State.drivePorts_inputs (s : State) (v : Bool) (x : Word) (e : Bool) : (s.drivePorts v x e).inputs = s.inputs := rfl

@[simp] theorem State.drivePorts_rspValid (s : State) (v : Bool) (x : Word) (e : Bool) : (s.drivePorts v x e).rspValid = v := rfl

@[simp] theorem State.drivePorts_rsp (s : State) (v : Bool) (x : Word) (e : Bool) : (s.drivePorts v x e).rsp = x := rfl

@[simp] theorem State.drivePorts_cmdErr (s : State) (v : Bool) (x : Word) (e : Bool) : (s.drivePorts v x e).cmdErr = e := rfl

/-! ### quiet -/

@[simp] theorem State.quiet_window (s : State) : (s.quiet).window = s.window := rfl

@[simp] theorem State.quiet_cursor (s : State) : (s.quiet).cursor = s.cursor := rfl

@[simp] theorem State.quiet_sum1 (s : State) : (s.quiet).sum1 = s.sum1 := rfl

@[simp] theorem State.quiet_sum2 (s : State) : (s.quiet).sum2 = s.sum2 := rfl

@[simp] theorem State.quiet_inputs (s : State) : (s.quiet).inputs = s.inputs := rfl

@[simp] theorem State.quiet_rspValid (s : State) : (s.quiet).rspValid = false := rfl

@[simp] theorem State.quiet_rsp (s : State) : (s.quiet).rsp = 0#32 := rfl

@[simp] theorem State.quiet_cmdErr (s : State) : (s.quiet).cmdErr = false := rfl

/-! ### respond -/

@[simp] theorem State.respond_window (s : State) (v : Word) : (s.respond v).window = s.window := rfl

@[simp] theorem State.respond_cursor (s : State) (v : Word) : (s.respond v).cursor = s.cursor := rfl

@[simp] theorem State.respond_sum1 (s : State) (v : Word) : (s.respond v).sum1 = s.sum1 := rfl

@[simp] theorem State.respond_sum2 (s : State) (v : Word) : (s.respond v).sum2 = s.sum2 := rfl

@[simp] theorem State.respond_inputs (s : State) (v : Word) : (s.respond v).inputs = s.inputs := rfl

@[simp] theorem State.respond_rspValid (s : State) (v : Word) : (s.respond v).rspValid = true := rfl

@[simp] theorem State.respond_rsp (s : State) (v : Word) : (s.respond v).rsp = v := rfl

@[simp] theorem State.respond_cmdErr (s : State) (v : Word) : (s.respond v).cmdErr = false := rfl

/-! ### takeException -/

@[simp] theorem State.takeException_window (s : State) (op : Opcode) : (s.takeException (.illegalCommand op)).window = s.window := rfl

@[simp] theorem State.takeException_cursor (s : State) (op : Opcode) : (s.takeException (.illegalCommand op)).cursor = s.cursor := rfl

@[simp] theorem State.takeException_sum1 (s : State) (op : Opcode) : (s.takeException (.illegalCommand op)).sum1 = s.sum1 := rfl

@[simp] theorem State.takeException_sum2 (s : State) (op : Opcode) : (s.takeException (.illegalCommand op)).sum2 = s.sum2 := rfl

@[simp] theorem State.takeException_inputs (s : State) (op : Opcode) : (s.takeException (.illegalCommand op)).inputs = s.inputs := rfl

@[simp] theorem State.takeException_rspValid (s : State) (op : Opcode) : (s.takeException (.illegalCommand op)).rspValid = false := rfl

@[simp] theorem State.takeException_rsp (s : State) (op : Opcode) : (s.takeException (.illegalCommand op)).rsp = 0#32 := rfl

@[simp] theorem State.takeException_cmdErr (s : State) (op : Opcode) : (s.takeException (.illegalCommand op)).cmdErr = true := rfl

/-! ### withInputs -/

@[simp] theorem State.withInputs_window (s : State) (xs : List PortInput) : (s.withInputs xs).window = s.window := rfl

@[simp] theorem State.withInputs_cursor (s : State) (xs : List PortInput) : (s.withInputs xs).cursor = s.cursor := rfl

@[simp] theorem State.withInputs_sum1 (s : State) (xs : List PortInput) : (s.withInputs xs).sum1 = s.sum1 := rfl

@[simp] theorem State.withInputs_sum2 (s : State) (xs : List PortInput) : (s.withInputs xs).sum2 = s.sum2 := rfl

@[simp] theorem State.withInputs_inputs (s : State) (xs : List PortInput) : (s.withInputs xs).inputs = xs := rfl

@[simp] theorem State.withInputs_rspValid (s : State) (xs : List PortInput) : (s.withInputs xs).rspValid = s.rspValid := rfl

@[simp] theorem State.withInputs_rsp (s : State) (xs : List PortInput) : (s.withInputs xs).rsp = s.rsp := rfl

@[simp] theorem State.withInputs_cmdErr (s : State) (xs : List PortInput) : (s.withInputs xs).cmdErr = s.cmdErr := rfl

/-! ### initialise -/

@[simp] theorem State.initialise_window (s : State) : (s.initialise).window = [] := rfl

@[simp] theorem State.initialise_cursor (s : State) : (s.initialise).cursor = 0#6 := rfl

@[simp] theorem State.initialise_sum1 (s : State) : (s.initialise).sum1 = 0x000007C0#32 := rfl

@[simp] theorem State.initialise_sum2 (s : State) : (s.initialise).sum2 = 0x0001E840#32 := rfl

@[simp] theorem State.initialise_inputs (s : State) : (s.initialise).inputs = s.inputs := rfl

@[simp] theorem State.initialise_rspValid (s : State) : (s.initialise).rspValid = s.rspValid := rfl

@[simp] theorem State.initialise_rsp (s : State) : (s.initialise).rsp = s.rsp := rfl

@[simp] theorem State.initialise_cmdErr (s : State) : (s.initialise).cmdErr = s.cmdErr := rfl

/-! ### writeSlot -/

@[simp] theorem State.writeSlot_window (s : State) (a : SlotAddr) (b : Byte) : (s.writeSlot a b).window = s.window.write a.toNat b := rfl

@[simp] theorem State.writeSlot_cursor (s : State) (a : SlotAddr) (b : Byte) : (s.writeSlot a b).cursor = s.cursor := rfl

@[simp] theorem State.writeSlot_sum1 (s : State) (a : SlotAddr) (b : Byte) : (s.writeSlot a b).sum1 = s.sum1 := rfl

@[simp] theorem State.writeSlot_sum2 (s : State) (a : SlotAddr) (b : Byte) : (s.writeSlot a b).sum2 = s.sum2 := rfl

@[simp] theorem State.writeSlot_inputs (s : State) (a : SlotAddr) (b : Byte) : (s.writeSlot a b).inputs = s.inputs := rfl

@[simp] theorem State.writeSlot_rspValid (s : State) (a : SlotAddr) (b : Byte) : (s.writeSlot a b).rspValid = s.rspValid := rfl

@[simp] theorem State.writeSlot_rsp (s : State) (a : SlotAddr) (b : Byte) : (s.writeSlot a b).rsp = s.rsp := rfl

@[simp] theorem State.writeSlot_cmdErr (s : State) (a : SlotAddr) (b : Byte) : (s.writeSlot a b).cmdErr = s.cmdErr := rfl

/-! ### roll -/

@[simp] theorem State.roll_window (s : State) (b : Byte) : (s.roll b).window = s.window.write s.cursor.toNat b := rfl

@[simp] theorem State.roll_cursor (s : State) (b : Byte) : (s.roll b).cursor = s.cursor + 1#6 := rfl

@[simp] theorem State.roll_sum1 (s : State) (b : Byte) : (s.roll b).sum1 = (update s.sum1 s.sum2 (s.readSlot s.cursor) b).1 := rfl

@[simp] theorem State.roll_sum2 (s : State) (b : Byte) : (s.roll b).sum2 = (update s.sum1 s.sum2 (s.readSlot s.cursor) b).2 := rfl

@[simp] theorem State.roll_inputs (s : State) (b : Byte) : (s.roll b).inputs = s.inputs := rfl

@[simp] theorem State.roll_rspValid (s : State) (b : Byte) : (s.roll b).rspValid = s.rspValid := rfl

@[simp] theorem State.roll_rsp (s : State) (b : Byte) : (s.roll b).rsp = s.rsp := rfl

@[simp] theorem State.roll_cmdErr (s : State) (b : Byte) : (s.roll b).cmdErr = s.cmdErr := rfl

/-! ### resetCycle -/

@[simp] theorem State.resetCycle_window (s : State) : (s.resetCycle).window = [] := rfl

@[simp] theorem State.resetCycle_cursor (s : State) : (s.resetCycle).cursor = 0#6 := rfl

@[simp] theorem State.resetCycle_sum1 (s : State) : (s.resetCycle).sum1 = 0x000007C0#32 := rfl

@[simp] theorem State.resetCycle_sum2 (s : State) : (s.resetCycle).sum2 = 0x0001E840#32 := rfl

@[simp] theorem State.resetCycle_inputs (s : State) : (s.resetCycle).inputs = s.inputs := rfl

@[simp] theorem State.resetCycle_rspValid (s : State) : (s.resetCycle).rspValid = false := rfl

@[simp] theorem State.resetCycle_rsp (s : State) : (s.resetCycle).rsp = 0#32 := rfl

@[simp] theorem State.resetCycle_cmdErr (s : State) : (s.resetCycle).cmdErr = false := rfl

/-! ### idleCycle -/

@[simp] theorem State.idleCycle_window (s : State) : (s.idleCycle).window = s.window := rfl

@[simp] theorem State.idleCycle_cursor (s : State) : (s.idleCycle).cursor = s.cursor := rfl

@[simp] theorem State.idleCycle_sum1 (s : State) : (s.idleCycle).sum1 = s.sum1 := rfl

@[simp] theorem State.idleCycle_sum2 (s : State) : (s.idleCycle).sum2 = s.sum2 := rfl

@[simp] theorem State.idleCycle_inputs (s : State) : (s.idleCycle).inputs = s.inputs := rfl

@[simp] theorem State.idleCycle_rspValid (s : State) : (s.idleCycle).rspValid = false := rfl

@[simp] theorem State.idleCycle_rsp (s : State) : (s.idleCycle).rsp = 0#32 := rfl

@[simp] theorem State.idleCycle_cmdErr (s : State) : (s.idleCycle).cmdErr = false := rfl

/-! ### consumeInput -/

@[simp] theorem State.consumeInput_window (s : State) : (s.consumeInput).window = s.window := rfl

@[simp] theorem State.consumeInput_cursor (s : State) : (s.consumeInput).cursor = s.cursor := rfl

@[simp] theorem State.consumeInput_sum1 (s : State) : (s.consumeInput).sum1 = s.sum1 := rfl

@[simp] theorem State.consumeInput_sum2 (s : State) : (s.consumeInput).sum2 = s.sum2 := rfl

@[simp] theorem State.consumeInput_inputs (s : State) : (s.consumeInput).inputs = s.inputs.tail := rfl

@[simp] theorem State.consumeInput_rspValid (s : State) : (s.consumeInput).rspValid = s.rspValid := rfl

@[simp] theorem State.consumeInput_rsp (s : State) : (s.consumeInput).rsp = s.rsp := rfl

@[simp] theorem State.consumeInput_cmdErr (s : State) : (s.consumeInput).cmdErr = s.cmdErr := rfl

/-! ### presentCommand -/

@[simp] theorem State.presentCommand_window (s : State) (w : CmdWord) : (s.presentCommand w).window = s.window := rfl

@[simp] theorem State.presentCommand_cursor (s : State) (w : CmdWord) : (s.presentCommand w).cursor = s.cursor := rfl

@[simp] theorem State.presentCommand_sum1 (s : State) (w : CmdWord) : (s.presentCommand w).sum1 = s.sum1 := rfl

@[simp] theorem State.presentCommand_sum2 (s : State) (w : CmdWord) : (s.presentCommand w).sum2 = s.sum2 := rfl

@[simp] theorem State.presentCommand_inputs (s : State) (w : CmdWord) : (s.presentCommand w).inputs = PortInput.command w :: s.inputs.tail := rfl

@[simp] theorem State.presentCommand_rspValid (s : State) (w : CmdWord) : (s.presentCommand w).rspValid = s.rspValid := rfl

@[simp] theorem State.presentCommand_rsp (s : State) (w : CmdWord) : (s.presentCommand w).rsp = s.rsp := rfl

@[simp] theorem State.presentCommand_cmdErr (s : State) (w : CmdWord) : (s.presentCommand w).cmdErr = s.cmdErr := rfl

/-! ### The reset state -/

@[simp] theorem State.reset_window : State.reset.window = [] := rfl

@[simp] theorem State.reset_cursor : State.reset.cursor = 0#6 := rfl

@[simp] theorem State.reset_sum1 : State.reset.sum1 = 0x000007C0#32 := rfl

@[simp] theorem State.reset_sum2 : State.reset.sum2 = 0x0001E840#32 := rfl

@[simp] theorem State.reset_inputs : State.reset.inputs = [] := rfl

@[simp] theorem State.reset_rspValid : State.reset.rspValid = false := rfl

@[simp] theorem State.reset_rsp : State.reset.rsp = 0#32 := rfl

@[simp] theorem State.reset_cmdErr : State.reset.cmdErr = false := rfl

end Sys2Proof.Machine
end

