-- ==== Sys2Proof/Laws/Ops.lean ====
section
/-! SUPPORT. For each shared operation, one lemma that says once everything it can do; and what a cycle can do. -/

namespace Sys2Proof.Machine

/-! ### Slots -/

/-- A store to a slot: the stored byte there, every other slot as before. -/
theorem State.readSlot_writeSlot (s : State) (a : SlotAddr) (b : Byte) (c : SlotAddr) :
    (s.writeSlot a b).readSlot c = if c = a then b else s.readSlot c := by
  simp [State.readSlot, State.writeSlot, Memory.read_write, BitVec.toNat_inj]

/-- The slots after a ROLL: the new byte at the old cursor, every other slot as before. -/
theorem State.readSlot_roll (s : State) (b : Byte) (c : SlotAddr) :
    (s.roll b).readSlot c = if c = s.cursor then b else s.readSlot c :=
  s.readSlot_writeSlot s.cursor b c

@[simp] theorem State.readSlot_drivePorts (s : State) (v : Bool) (x : Word) (e : Bool) (c : SlotAddr) :
    (s.drivePorts v x e).readSlot c = s.readSlot c := rfl

@[simp] theorem State.readSlot_withInputs (s : State) (xs : List PortInput) (c : SlotAddr) :
    (s.withInputs xs).readSlot c = s.readSlot c := rfl

@[simp] theorem State.readSlot_initialise (s : State) (c : SlotAddr) : s.initialise.readSlot c = 0x00#8 := rfl

/-! ### UPDATE -/

/-- The new `sum1`, as a number (R9, R101). -/
theorem update_fst_toNat (s1 s2 : Word) (d b : Byte) :
    (update s1 s2 d b).1.toNat = (s1.toNat + b.toNat + (2 ^ 32 - d.toNat)) % 2 ^ 32 := by
  have hb := b.isLt
  have hd := d.isLt
  simp only [update, zextByte, BitVec.toNat_sub, BitVec.toNat_add, BitVec.toNat_setWidth]
  omega

/-- The new `sum2` from the new `sum1`, as a vector equation (R101, R106). -/
theorem update_snd (s1 s2 : Word) (d b : Byte) :
    (update s1 s2 d b).2 = s2 + (update s1 s2 d b).1 - (zextByte d + 31#32) * 64#32 := rfl

/-! ### The trailing ones -/

/-- The loop of R132 counts a run of ones that ends at a zero or at the bound. -/
theorem onesFrom_spec (v : Word) (fuel i : Nat) :
    onesFrom v fuel i ≤ fuel ∧ (∀ k < onesFrom v fuel i, v.getLsbD (i + k) = true) ∧
      (onesFrom v fuel i < fuel → v.getLsbD (i + onesFrom v fuel i) = false) := by
  induction fuel generalizing i with
  | zero => simp [onesFrom]
  | succ f ih =>
    obtain ⟨h1, h2, h3⟩ := ih (i + 1)
    cases hv : v.getLsbD i with
    | false => simp [onesFrom, hv]
    | true =>
      simp only [onesFrom, hv, if_true]
      refine ⟨by omega, ?_, ?_⟩
      · intro k hk
        cases k with
        | zero => simpa using hv
        | succ k =>
          have := h2 k (by omega)
          rwa [show i + (k + 1) = i + 1 + k by omega]
      · intro hlt
        have := h3 (by omega)
        rwa [show i + (onesFrom v f (i + 1) + 1) = i + 1 + onesFrom v f (i + 1) by omega]

/-! ### Cycles -/

/-- What a cycle does, by the precedence of R164. -/
theorem cycle_cases (x : PortInput) (s : State) :
    (x.rst = true ∧ cycle x s = .next s.resetCycle) ∨
      (x.rst = false ∧ x.cmdValid = false ∧ cycle x s = .next s.idleCycle) ∨
      (x.rst = false ∧ x.cmdValid = true ∧ cycle x s = exec (decode x.cmd) s) := by
  cases hr : x.rst <;> cases hv : x.cmdValid <;> simp [cycle, hr, hv]

/-- What a command does: one of these six shapes, and never anything but a next state. -/
theorem exec_shapes (i : Instr) (s : State) :
    (i = .create ∧ exec i s = .next s.initialise.quiet) ∨
      (∃ b, i = .roll b ∧ exec i s = .next (s.roll b).quiet) ∨
      (i = .nop ∧ exec i s = .next s.quiet) ∨
      (∃ v, (i = .digest ∨ i = .vbits ∨ i = .onsplit) ∧ exec i s = .next (s.respond v)) ∨
      (∃ op, i.wellFormed = false ∧ exec i s = .next (s.takeException (.illegalCommand op))) := by
  cases i with
  | create => exact .inl ⟨rfl, rfl⟩
  | roll b => exact .inr (.inl ⟨b, rfl, rfl⟩)
  | nop => exact .inr (.inr (.inl ⟨rfl, rfl⟩))
  | digest => exact .inr (.inr (.inr (.inl ⟨_, .inl rfl, rfl⟩)))
  | vbits => exact .inr (.inr (.inr (.inl ⟨_, .inr (.inl rfl), rfl⟩)))
  | onsplit => exact .inr (.inr (.inr (.inl ⟨_, .inr (.inr rfl), rfl⟩)))
  | reserved3 | reserved7 | reserved8 | reserved9 | reservedA | reservedB | reservedC | reservedD | reservedE
  | reservedF => exact .inr (.inr (.inr (.inr ⟨_, rfl, rfl⟩)))

/-- A step takes the next input off the list and performs its cycle (R80). -/
theorem step_cons (s : State) (x : PortInput) (xs : List PortInput) :
    step (s.withInputs (x :: xs)) = cycle x (s.withInputs xs) := rfl

/-- A run of one cycle more begins with a step. -/
theorem run_succ {s t : State} (h : step s = .next t) (k : Nat) :
    Host.Core.run Sys2Proof.core (k + 1) s = Host.Core.run Sys2Proof.core k t := by
  have h' : Sys2Proof.core.step s = .next t := h
  simp only [Host.Core.run, h']

/-- A step with nothing presented is an idle cycle (log 3). -/
theorem step_nil (s : State) : step (s.withInputs []) = .next (s.withInputs []).idleCycle := rfl

end Sys2Proof.Machine
end

