-- ==== Sys2Proof/Laws/PerInstr.lean ====
section
/-! SUPPORT. A statement for every command, one lemma for each constructor: the fields of the word the encoder writes (R72,
R73; for the reserved opcodes log 8). -/

namespace Sys2Proof

/-- The encoder's word has the command's opcode in bits 11 to 8, its data byte in bits 7 to 0, and the mask 0xF00 of the
opcode table picks the table's match value out of it. -/
def Laws.CanonicalWord.Statement (i : Instr) : Prop :=
  opField (encode i) = i.opcode ∧ dataField (encode i) = i.dataByte ∧ encode i &&& 0xF00#12 = i.opcode ++ 0x00#8

theorem Laws.CanonicalWord.nop : Laws.CanonicalWord.Statement .nop := ⟨rfl, rfl, rfl⟩

theorem Laws.CanonicalWord.create : Laws.CanonicalWord.Statement .create := ⟨rfl, rfl, rfl⟩

theorem Laws.CanonicalWord.roll (data : Byte) : Laws.CanonicalWord.Statement (.roll data) := by
  refine ⟨opField_append _ _, dataField_append _ _, ?_⟩
  show (0x2#4 ++ data) &&& 0xF00#12 = 0x2#4 ++ 0x00#8
  revert data
  decide

theorem Laws.CanonicalWord.reserved3 : Laws.CanonicalWord.Statement .reserved3 := ⟨rfl, rfl, rfl⟩

theorem Laws.CanonicalWord.digest : Laws.CanonicalWord.Statement .digest := ⟨rfl, rfl, rfl⟩

theorem Laws.CanonicalWord.vbits : Laws.CanonicalWord.Statement .vbits := ⟨rfl, rfl, rfl⟩

theorem Laws.CanonicalWord.onsplit : Laws.CanonicalWord.Statement .onsplit := ⟨rfl, rfl, rfl⟩

theorem Laws.CanonicalWord.reserved7 : Laws.CanonicalWord.Statement .reserved7 := ⟨rfl, rfl, rfl⟩

theorem Laws.CanonicalWord.reserved8 : Laws.CanonicalWord.Statement .reserved8 := ⟨rfl, rfl, rfl⟩

theorem Laws.CanonicalWord.reserved9 : Laws.CanonicalWord.Statement .reserved9 := ⟨rfl, rfl, rfl⟩

theorem Laws.CanonicalWord.reservedA : Laws.CanonicalWord.Statement .reservedA := ⟨rfl, rfl, rfl⟩

theorem Laws.CanonicalWord.reservedB : Laws.CanonicalWord.Statement .reservedB := ⟨rfl, rfl, rfl⟩

theorem Laws.CanonicalWord.reservedC : Laws.CanonicalWord.Statement .reservedC := ⟨rfl, rfl, rfl⟩

theorem Laws.CanonicalWord.reservedD : Laws.CanonicalWord.Statement .reservedD := ⟨rfl, rfl, rfl⟩

theorem Laws.CanonicalWord.reservedE : Laws.CanonicalWord.Statement .reservedE := ⟨rfl, rfl, rfl⟩

theorem Laws.CanonicalWord.reservedF : Laws.CanonicalWord.Statement .reservedF := ⟨rfl, rfl, rfl⟩

end Sys2Proof
end

