-- ==== Sys2Proof/Tests/Slice0.lean ====
section
/-! SUPPORT. Tests: words written out bit by bit from the encodings of 30_encoding.md, vectors of 95_test_vectors.md, the
smoke tests of the checks, and for each obligation with hypotheses a witness that meets them all. -/

namespace Sys2Proof.Tests

open Sys2Proof Sys2Proof.Machine

/-! ### Decoding: `oooo dddddddd` from R73's table of bit patterns, `data` at a value a command must ignore or keep;
the constructors of the reserved opcodes are the model's choice (log 8) -/

theorem test_decode_nop : decode 0b000011111111#12 = .nop := by decide
theorem test_decode_create : decode 0b000110101010#12 = .create := by decide
theorem test_decode_roll : decode 0b001001000001#12 = .roll 0b01000001#8 := by decide
theorem test_decode_reserved3 : decode 0b001100000000#12 = .reserved3 := by decide
theorem test_decode_digest : decode 0b010011000011#12 = .digest := by decide
theorem test_decode_vbits : decode 0b010100000000#12 = .vbits := by decide
theorem test_decode_onsplit : decode 0b011000000000#12 = .onsplit := by decide
theorem test_decode_reserved7 : decode 0b011111111111#12 = .reserved7 := by decide
theorem test_decode_reserved8 : decode 0b100000000000#12 = .reserved8 := by decide
theorem test_decode_reserved9 : decode 0b100100000000#12 = .reserved9 := by decide
theorem test_decode_reservedA : decode 0b101000000000#12 = .reservedA := by decide
theorem test_decode_reservedB : decode 0b101100000000#12 = .reservedB := by decide
theorem test_decode_reservedC : decode 0b110000000000#12 = .reservedC := by decide
theorem test_decode_reservedD : decode 0b110100000000#12 = .reservedD := by decide
theorem test_decode_reservedE : decode 0b111000000000#12 = .reservedE := by decide
theorem test_decode_reservedF : decode 0b111101010101#12 = .reservedF := by decide

/-- R73's canonical words. -/
theorem test_encode_canonical_words :
    encode .create = 0x100#12 ∧ encode (.roll 0xFF#8) = 0x2FF#12 ∧ encode .onsplit = 0x600#12 := by decide

/-- A number of more than 12 bits is no command word (R72). -/
theorem test_decode_rejects_wide_number :
    wordOfNumber 0x1000 = .error (.notTwelveBits 0x1000) ∧ decodeTableWord 16 0x1241 = none := by decide

theorem test_decodeTableWord_roll : decodeTableWord 16 0x0241 = some (.roll 0x41#8) := by decide

/-! ### The checks refuse what is ill formed -/

theorem test_wellFormed_refuses_reserved3 : Instr.wellFormed .reserved3 = false := by decide
theorem test_wellFormed_refuses_reservedF : Instr.wellFormed .reservedF = false := by decide
theorem test_wellFormedStream_refuses_reserved :
    wellFormedStream [PortInput.command 0x100#12, PortInput.command 0x700#12] = false := by decide
theorem test_line_refuses_byte_256 :
    AsmLine.wellFormed (.roll 256) = false ∧ AsmLine.wellFormed (.step 256) = false ∧
      AsmLine.wellFormed (.feed [255, 256]) = false ∧ AsmLine.wellFormed (.feedRepeat 256 1) = false := by decide
theorem test_line_refuses_wide_word_and_text :
    AsmLine.wellFormed (.word 0x1000) = false ∧ AsmLine.wellFormed (.feedText [128]) = false := by decide
theorem test_wf_refuses_bad_windows :
    Memory.wf [(3, 1#8), (3, 2#8)] = false ∧ Memory.wf [(64, 1#8)] = false ∧ Memory.wf [(0, 0#8)] = false := by decide

/-! ### One step each, from the reset state or a small one -/

/-- A state with the given attributes, its next cycle a command. -/
def before (window : Memory) (cursor : SlotAddr) (sum1 sum2 : Word) (w : CmdWord) : State :=
  { State.reset with
    window := window, cursor := cursor, sum1 := sum1, sum2 := sum2, inputs := [PortInput.command w] }

/-- The state a step answers. -/
def after (s : State) : Option State :=
  match step s with
  | .next t => some t
  | .fault _ => none
  | .refused _ => none

/-- A state with the given attributes and port values, nothing more presented. -/
def left (window : Memory) (cursor : SlotAddr) (sum1 sum2 : Word) (valid : Bool) (value : Word) (err : Bool) : Option State :=
  some { window := window, cursor := cursor, sum1 := sum1, sum2 := sum2, inputs := [], rspValid := valid, rsp := value,
         cmdErr := err }

/-- R103's worked example. -/
theorem test_nop_after_roll :
    after (before [(0, 0x41#8)] 1#6 0x801#32 0x1E881#32 0x0FF#12) = left [(0, 0x41#8)] 1#6 0x801#32 0x1E881#32 false 0#32 false := by
  decide

/-- R100's worked example. -/
theorem test_create_after_roll :
    after (before [(0, 0x41#8)] 1#6 0x801#32 0x1E881#32 0x1AA#12) = left [] 0#6 0x7C0#32 0x1E840#32 false 0#32 false := by decide

/-- R102's worked example; it fails with the old `sum1` in the `sum2` update (95_test_vectors.md section 4). -/
theorem test_roll_0x41_from_S0 :
    after (before [] 0#6 0x7C0#32 0x1E840#32 0x241#12) = left [(0, 0x41#8)] 1#6 0x801#32 0x1E881#32 false 0#32 false := by decide

/-- A ROLL at the last slot, so that the cursor wraps; the sums of 95_test_vectors.md section 2.1 row 8:
0x41 leaves, 0x00 enters. -/
theorem test_roll_drops_and_wraps :
    after (before [(5, 1#8), (63, 0x41#8)] 63#6 0x801#32 0x1E881#32 0x200#12) =
      left [(5, 1#8)] 0#6 0x7C0#32 0x1D841#32 false 0#32 false := by decide

/-- Rows 4 and 5 of 95_test_vectors.md section 2.1: the sums wrap both ways. -/
theorem test_update_wraps :
    update 0#32 0#32 0xFF#8 0x00#8 = (0xFFFFFF01#32, 0xFFFFB781#32) ∧
      update 0xFFFFFFFF#32 0xFFFFFFFF#32 0x00#8 0xFF#8 = (0x000000FE#32, 0xFFFFF93D#32) := by decide

/-- Program P1, row 3. -/
theorem test_digest_P1 :
    after (before [(0, 0x41#8)] 1#6 0x801#32 0x1E881#32 0x400#12) =
      left [(0, 0x41#8)] 1#6 0x801#32 0x1E881#32 true 0x0801E881#32 false := by decide

/-- 95_test_vectors.md section 2.3, rows 4 and 12: the upper halves do not reach the digest. -/
theorem test_digest_upper_halves :
    digest 0x00010000#32 0#32 = 0#32 ∧ digest 0x12345678#32 0x9ABCDEF0#32 = 0x5678DEF0#32 := by decide

/-- Program P1, row 4. -/
theorem test_vbits_P1 :
    after (before [] 1#6 0x801#32 0x1E881#32 0x500#12) = left [] 1#6 0x801#32 0x1E881#32 true 17#32 false := by decide

/-- 95_test_vectors.md section 2.3, rows 3, 5, 10 and 16. -/
theorem test_vbits_rows :
    vbits 0xFFFFFFFF#32 0xFFFFFFFF#32 = 32#6 ∧ vbits 0xFFFF#32 0x1FFF#32 = 13#6 ∧ vbits 0x7FFF#32 0xFFFF#32 = 31#6 ∧
      vbits 0xFFFE#32 0xFFFF#32 = 16#6 := by decide

/-- Program P2, row 15. -/
theorem test_onsplit_P2 :
    after (before [] 7#6 0xC59#32 0x1FFFF#32 0x600#12) = left [] 7#6 0xC59#32 0x1FFFF#32 true 1#32 false := by decide

/-- 95_test_vectors.md section 2.3, rows 2, 14 and 18. -/
theorem test_onsplit_rows :
    onSplit 0#32 = false ∧ onSplit 0xFFFF1FFF#32 = true ∧ onSplit 0x00000FFF#32 = false := by decide

/-- Program P5, rows 3, 5 and 10: an illegal command sets `cmd_err` and changes no attribute. -/
theorem test_reserved_P5 :
    after (before [(0, 0x41#8)] 1#6 0x801#32 0x1E881#32 0x300#12) = left [(0, 0x41#8)] 1#6 0x801#32 0x1E881#32 false 0#32 true ∧
      after (before [(0, 0x41#8)] 1#6 0x801#32 0x1E881#32 0xF55#12) = left [(0, 0x41#8)] 1#6 0x801#32 0x1E881#32 false 0#32 true ∧
      after (before [] 0#6 0x7C0#32 0x1E840#32 0x7FF#12) = left [] 0#6 0x7C0#32 0x1E840#32 false 0#32 true := by decide

/-- 95_test_vectors.md section 2.5: a ROLL is ignored in a cycle of `rst = 1` and without `cmd_valid`. -/
theorem test_reset_and_idle_ignore_the_command :
    after { before [(0, 1#8)] 9#6 1#32 2#32 0#12 with inputs := [⟨true, true, 0x241#12⟩] } =
        left [] 0#6 0x7C0#32 0x1E840#32 false 0#32 false ∧
      after { before [(0, 1#8)] 9#6 1#32 2#32 0#12 with inputs := [⟨false, false, 0x300#12⟩] } =
        left [(0, 1#8)] 9#6 1#32 2#32 false 0#32 false := by decide

/-- The first step after reset with a word presented runs it. -/
theorem test_withFetchWord_runs_first :
    after (State.reset.withFetchWord 16 0x0241) = left [(0, 0x41#8)] 1#6 0x801#32 0x1E881#32 false 0#32 false := by decide

/-! ### The assembler -/

theorem test_text_roll_forms :
    assembleText "ROLL 65 ; decimal".toList = .ok [PortInput.command 0x241#12] ∧
      assembleText "ROLL 0x41".toList = .ok [PortInput.command 0x241#12] ∧
      assembleText "  ROLL 'A'".toList = .ok [PortInput.command 0x241#12] ∧
      assembleText "ROLL 256".toList = .error (.byteOutOfRange 256) := by decide

theorem test_text_pseudo_instructions :
    assembleText "FEED 0x01, 2, 'A'".toList = .ok [.command 0x201#12, .command 0x202#12, .command 0x241#12] ∧
      assembleText "FEED \x22a;b\x22".toList = .ok [.command 0x261#12, .command 0x23B#12, .command 0x262#12] ∧
      assembleText "FEED 0xFF * 2".toList = .ok [.command 0x2FF#12, .command 0x2FF#12] ∧
      assembleText "STEP 0x9C".toList = .ok [.command 0x29C#12, .command 0x600#12] ∧
      assembleText ".word 0xF55".toList = .ok [.command 0xF55#12] := by decide

theorem test_text_query_check :
    parseLine "DIGEST -> 0x0801E881".toList = .ok (some ⟨.digest, some 0x0801E881⟩) ∧
      parseLine "CREATE -> 1".toList = .error .badOperands ∧
      SourceLine.holds ⟨.vbits, some 17⟩ { State.reset with rspValid := true, rsp := 17#32 } = true := by decide

/-! ### Witnesses: hypotheses that are met -/

theorem witness_OnlyRollUsesDataBits : (0xF#4 : Opcode) ≠ 0x2#4 ∧ (∀ d, Instr.create ≠ .roll d) :=
  ⟨by decide, fun _ h => Instr.noConfusion h⟩

theorem witness_StepRunsDecodedCommand :
    let x := PortInput.command 0x2FF#12
    let s := { State.reset with cursor := 63#6, inputs := [x] }
    s.inputs = x :: [] ∧ x.rst = false ∧ x.cmdValid = true := by decide

theorem witness_StepWithNothingPresentedIsIdle : State.reset.inputs = [] := by decide

theorem witness_PresentedWordRunsItsCommand : 12 ≤ 12 ∧ 12 ≤ 16 := by decide

theorem witness_ZeroRollsAreAFixedPoint :
    let s := { State.reset with cursor := 63#6, window := [(0, 0xFF#8)], sum2 := 7#32 }
    s.readSlot s.cursor = 0x00#8 ∧ s.sum1 = 1984#32 := by decide

theorem witness_reachable : State.reset.Reachable := .afterReset []

theorem witness_DigestRespondsAndChangesNothing : State.reset.Reachable := witness_reachable

/-- Same sums, another window and cursor. -/
theorem witness_QueriesArePureFunctionsOfTheSums :
    let s := State.reset
    let s' := { State.reset with cursor := 63#6, window := [(63, 0xFF#8)] }
    Instr.vbits ∈ [Instr.digest, Instr.vbits, Instr.onsplit] ∧ s.sum1 = s'.sum1 ∧ s.sum2 = s'.sum2 ∧ s.cursor ≠ s'.cursor := by
  decide

theorem witness_OnSplitAndVbitsReadTheDigest : onSplit 0x0001FFFF#32 = true := by decide

theorem witness_UpperHalvesReachNoQuery :
    (0xFFFF1234#32 : Word).extractLsb' 0 16 = (0x00001234#32 : Word).extractLsb' 0 16 ∧
      (0x8000FFFF#32 : Word).extractLsb' 0 16 = (0x0000FFFF#32 : Word).extractLsb' 0 16 := by decide

/-- Each of the three queries, and a cycle with no response. -/
theorem witness_ResponseOfEveryCycle :
    decode 0x4C3#12 = .digest ∧ decode 0x500#12 = .vbits ∧ decode 0x6FF#12 = .onsplit ∧
      (PortInput.command 0x4C3#12).rst = false ∧ (PortInput.command 0x4C3#12).cmdValid = true ∧
      (State.reset.resetCycle).rspValid = false := by decide

theorem witness_ReservedOpcodesRaiseIllegalCommand :
    Instr.reservedF ∈ [Instr.reserved3, .reserved7, .reserved8, .reserved9, .reservedA, .reservedB, .reservedC, .reservedD,
      .reservedE, .reservedF] ∧ Instr.reservedF.wellFormed = false := by decide

theorem witness_LegalCommandsNeverRaise : Instr.wellFormed (.roll 0xFF#8) = true ∧ Instr.wellFormed .onsplit = true := by decide

theorem witness_WellFormedStreamsRaiseNothing :
    [PortInput.command 0x6FF#12, ⟨true, true, 0xFFF#12⟩, PortInput.idle] ≠ [] ∧
      wellFormedStream [PortInput.command 0x6FF#12, ⟨true, true, 0xFFF#12⟩, PortInput.idle] = true := by decide

theorem witness_OnlyRollCreateAndResetWriteTheWindow : Instr.onsplit ≠ .create ∧ (∀ b, Instr.onsplit ≠ .roll b) :=
  ⟨by decide, fun _ h => Instr.noConfusion h⟩

/-- An idle cycle, a query, an illegal command, and a NOP. -/
theorem witness_OtherCyclesChangeNoAttribute :
    PortInput.idle.changesState = false ∧ (PortInput.command 0x400#12).changesState = false ∧
      (PortInput.command 0x3FF#12).changesState = false ∧ (PortInput.command 0x0FF#12).changesState = false := by decide

/-- A full cell at the last slot, and a ROLL about to overwrite it. -/
theorem witness_StepKeepsWindowCanonical :
    let s := before [(0, 1#8), (63, 0xFF#8)] 63#6 0#32 0#32 0x241#12
    s.window.wf = true ∧ ∃ t, step s = .next t := ⟨by decide, _, rfl⟩

/-- The state after `ROLL 0xFF` from `S0`, with another ROLL to come (95_test_vectors.md section 2.2). -/
theorem witness_StepKeepsClosedForm :
    (before [(0, 0xFF#8)] 1#6 0x8BF#32 0x1E93F#32 0x2FF#12).ClosedForm ∧
      ∃ t, step (before [(0, 0xFF#8)] 1#6 0x8BF#32 0x1E93F#32 0x2FF#12) = .next t :=
  ⟨⟨by decide, by decide⟩, _, rfl⟩

theorem witness_ReachableStatesMeetInvariants : (State.reset.withInputs [PortInput.command 0x2FF#12]).Reachable :=
  .afterReset _

/-- The all-zero window. -/
theorem witness_ClosedFormBoundsTheSums_zero :
    State.reset.ClosedForm ∧ State.reset.ageOrder = List.replicate 64 0x00#8 := ⟨⟨by decide, by decide⟩, by decide⟩

/-- The all-0xFF window: the largest reachable sums of 95_test_vectors.md section 2.2. -/
theorem witness_ClosedFormBoundsTheSums_full :
    let s := { State.reset with window := (List.range 64).map (fun a => (a, 0xFF#8)), sum1 := 0x4780#32, sum2 := 0xA0020#32 }
    s.ClosedForm ∧ s.ageOrder = List.replicate 64 0xFF#8 := ⟨⟨by decide, by decide⟩, by decide⟩

theorem witness_VbitsRange : State.reset.ClosedForm := witness_ClosedFormBoundsTheSums_zero.1

/-- Two streams of different length with the same last 64 bytes (in the manner of program P4). -/
theorem witness_HistoryBeyondTheWindowIsForgotten :
    lastWindow (0xDE#8 :: List.replicate 64 0x10#8) = lastWindow (List.replicate 64 0x10#8) := by decide

theorem witness_PseudoInstructionsExpand : ∀ c ∈ [0, 65, 127], c ≤ 127 := by decide

theorem witness_AssembledLinesAreWellFormedStreams :
    (∀ w, AsmLine.step 255 ≠ .word w) ∧
      (AsmLine.step 255).assemble = .ok [PortInput.command 0x2FF#12, PortInput.command 0x600#12] :=
  ⟨fun _ h => AsmLine.noConfusion h, by decide⟩

end Sys2Proof.Tests
end

section
/-! The proofs of the state family: the initial state `S0` of R32 and the cursor of R22. -/

namespace Sys2Proof.Machine

/-! ### The initial state -/

/-- What R32 says of the initial state `S0`, with the reference values of its table. -/
def State.IsInitial (t : State) : Prop :=
  (∀ a : SlotAddr, t.readSlot a = 0x00#8) ∧ t.cursor = 0#6 ∧ t.sum1 = 0x000007C0#32 ∧ t.sum2 = 0x0001E840#32 ∧
    t.digestO = 0x07C0E840#32 ∧ t.vbitsO = 16#6 ∧ t.splitO = false

/-- R32's reference values of the three queries, from the two initial sums. -/
theorem queries_of_initial_sums :
    digest 0x000007C0#32 0x0001E840#32 = 0x07C0E840#32 ∧ vbits 0x000007C0#32 0x0001E840#32 = 16#6 ∧
      onSplit 0x0001E840#32 = false := by decide

/-- The four attributes alone decide whether a state is initial. -/
theorem State.isInitial_of_sameArch_reset {t : State} (h : t.SameArch State.reset) : t.IsInitial := by
  obtain ⟨hwindow, hcursor, hsum1, hsum2⟩ := h
  obtain ⟨hdigest, hvbits, hsplit⟩ := queries_of_initial_sums
  refine ⟨fun a => ?_, hcursor, hsum1, hsum2, ?_, ?_, ?_⟩
  · rw [State.readSlot, hwindow]; rfl
  · rwa [State.digestO, hsum1, hsum2]
  · rwa [State.vbitsO, hsum1, hsum2]
  · rwa [State.splitO, hsum2]

theorem State.initialise_quiet_sameArch_reset (s : State) : s.initialise.quiet.SameArch State.reset :=
  ⟨rfl, rfl, rfl, rfl⟩

theorem exec_create (s : State) : exec .create s = .next s.initialise.quiet := rfl

/-- `rst = 1` comes before every command (R164). -/
theorem cycle_of_rst {x : PortInput} (hr : x.rst = true) (s : State) : cycle x s = .next s.resetCycle := by
  simp [cycle, hr]

/-- Settles O1: reset, CREATE and `rst` all leave the four attributes of `State.reset`, which make a state initial. -/
theorem resetAndCreateGiveInitialState : Obligations.ResetAndCreateGiveInitialState := by
  have hinit (s : State) : s.initialise.quiet.IsInitial :=
    State.isInitial_of_sameArch_reset s.initialise_quiet_sameArch_reset
  have hreset : State.reset.IsInitial := State.isInitial_of_sameArch_reset ⟨rfl, rfl, rfl, rfl⟩
  exact ⟨hreset, fun s => ⟨_, exec_create s, hinit s⟩, fun s _ _ => ⟨_, cycle_of_rst rfl s, hinit s⟩⟩

/-! ### The cursor -/

theorem exec_roll (b : Byte) (s : State) : exec (.roll b) s = .next (s.roll b).quiet := rfl

/-- The frame of every command but CREATE and ROLL: no attribute changes (R20's column "Written by"). -/
theorem exec_frame {i : Instr} (hcreate : i ≠ .create) (hroll : ∀ b, i ≠ .roll b) (s : State) :
    ∃ t, exec i s = .next t ∧ t.SameArch s ∧ t.inputs = s.inputs := by
  obtain ⟨h, -⟩ | ⟨b, h, -⟩ | ⟨-, h⟩ | ⟨v, -, h⟩ | ⟨op, -, h⟩ := exec_shapes i s
  · exact absurd h hcreate
  · exact absurd h (hroll b)
  all_goals exact ⟨_, h, ⟨rfl, rfl, rfl, rfl⟩, rfl⟩

/-- The 6-bit addition after a ROLL is the addition modulo 64 of R22. -/
theorem State.roll_cursor_toNat (s : State) (b : Byte) : (s.roll b).cursor.toNat = (s.cursor.toNat + 1) % 64 := by
  simp [BitVec.toNat_add]

/-- Settles O38, by the precedence of R164 and then by the command: only CREATE and ROLL write the cursor. -/
theorem cursorAdvancesOncePerRoll : Obligations.CursorAdvancesOncePerRoll := by
  intro s x
  obtain ⟨hr, hx⟩ | ⟨hr, hv, hx⟩ | ⟨hr, hv, hx⟩ := cycle_cases x s
  case inl => exact ⟨_, hx, by simp [hr]⟩
  case inr.inl => exact ⟨_, hx, by simp [hr, hv]⟩
  case inr.inr =>
    simp only [hx, hr, hv, Bool.false_eq_true, Bool.true_eq_false, if_false]
    split
    next b hi => exact ⟨(s.roll b).quiet, by rw [hi, exec_roll], s.roll_cursor_toNat b⟩
    next hi => exact ⟨s.initialise.quiet, by rw [hi, exec_create], rfl⟩
    next hroll hcreate =>
      obtain ⟨t, ht, ⟨-, hcursor, -, -⟩, -⟩ := exec_frame hcreate hroll s
      exact ⟨t, ht, congrArg BitVec.toNat hcursor⟩

end Sys2Proof.Machine
end

section
/-! The proofs of the encoding family: reset and idle cycles (R79), the response and the status outputs (R77, R78), and
the reserved opcodes (R76, R161). -/

namespace Sys2Proof.Machine

/-! ### The response -/

theorem exec_digest (s : State) : exec .digest s = .next (s.respond (digest s.sum1 s.sum2)) := rfl

theorem exec_vbits (s : State) : exec .vbits s = .next (s.respond ((vbits s.sum1 s.sum2).setWidth 32)) := rfl

theorem exec_onsplit (s : State) : exec .onsplit s = .next (s.respond (if onSplit s.sum2 then 1#32 else 0#32)) := rfl

theorem wellFormed_of_query : ∀ i ∈ [Instr.digest, Instr.vbits, Instr.onsplit], i.wellFormed = true := by decide

/-- A response is valid exactly for a query, and a command without one drives `rsp` to 0 (R77). -/
theorem exec_response (i : Instr) (s : State) :
    ∃ t, exec i s = .next t ∧ (t.rspValid = true ↔ i ∈ [Instr.digest, Instr.vbits, Instr.onsplit]) ∧
      (t.rspValid = false → t.rsp = 0#32) := by
  obtain ⟨rfl, h⟩ | ⟨b, rfl, h⟩ | ⟨rfl, h⟩ | ⟨v, hquery, h⟩ | ⟨op, hreserved, h⟩ := exec_shapes i s
  case inr.inr.inr.inl => exact ⟨_, h, by simpa using hquery, by simp⟩
  case inr.inr.inr.inr =>
    have hnot : i ∉ [Instr.digest, Instr.vbits, Instr.onsplit] := fun hmem => by
      simp [wellFormed_of_query i hmem] at hreserved
    exact ⟨_, h, by simpa using hnot, fun _ => rfl⟩
  all_goals exact ⟨_, h, by simp, fun _ => rfl⟩

/-- What a command responds is what a next state of it holds in `rsp`. -/
theorem rsp_of_exec_respond {i : Instr} {s t : State} {v : Word} (hv : exec i s = .next (s.respond v))
    (ht : exec i s = .next t) : t.rsp = v := by
  cases hv.symm.trans ht
  rfl

/-- Settles O32, by the precedence of R164 and then by the command. -/
theorem responseOfEveryCycle : Obligations.ResponseOfEveryCycle := by
  intro s x
  obtain ⟨hr, hx⟩ | ⟨hr, hv, hx⟩ | ⟨hr, hv, hx⟩ := cycle_cases x s
  case inl => exact ⟨_, hx, by simp [hr]⟩
  case inr.inl => exact ⟨_, hx, by simp [hv]⟩
  case inr.inr =>
    obtain ⟨t, ht, hvalid, hsilent⟩ := exec_response (decode x.cmd) s
    refine ⟨t, hx.trans ht, by simpa only [hr, hv, true_and] using hvalid, hsilent, fun _ _ => ⟨?_, ?_, ?_⟩⟩
    · exact fun hi => rsp_of_exec_respond (exec_digest s) (hi ▸ ht)
    · exact fun hi => rsp_of_exec_respond (exec_vbits s) (hi ▸ ht)
    · exact fun hi => rsp_of_exec_respond (exec_onsplit s) (hi ▸ ht)

/-! ### Illegal commands -/

/-- A reserved command takes IllegalCommand with its own opcode (R76, R161). -/
theorem exec_of_not_wellFormed {i : Instr} (h : i.wellFormed = false) (s : State) :
    exec i s = .next (s.takeException (.illegalCommand i.opcode)) := by
  cases i with
  | nop | create | roll | digest | vbits | onsplit => cases h
  | reserved3 | reserved7 | reserved8 | reserved9 | reservedA | reservedB | reservedC | reservedD | reservedE
  | reservedF => rfl

theorem State.takeException_eq (s : State) (e : Exception) :
    s.takeException e = { s with rspValid := false, rsp := 0#32, cmdErr := true } := by
  cases e
  rfl

/-- `cmd_err` is 1 exactly for a reserved command, whatever the state was (R76). -/
theorem exec_cmdErr (i : Instr) (s : State) :
    ∃ t, exec i s = .next t ∧ (t.cmdErr = true ↔ i.wellFormed = false) := by
  obtain ⟨rfl, h⟩ | ⟨b, rfl, h⟩ | ⟨rfl, h⟩ | ⟨v, hquery, h⟩ | ⟨op, hreserved, h⟩ := exec_shapes i s
  case inr.inr.inr.inl => exact ⟨_, h, by simp [wellFormed_of_query i (by simpa using hquery)]⟩
  case inr.inr.inr.inr => exact ⟨_, h, by simp [hreserved]⟩
  all_goals exact ⟨_, h, by simp [Instr.wellFormed]⟩

/-- Decoding keeps the opcode of a word (R73). -/
theorem opcode_decode (w : CmdWord) : (decode w).opcode = opField w := by
  unfold decode
  split
  case h_17 n hn _ => omega
  all_goals next hop => exact (BitVec.eq_of_toFin_eq hop).symm

/-- The opcodes of the reserved commands are the ten that R73's table leaves free. -/
theorem wellFormed_eq_false_iff_opcode (i : Instr) : i.wellFormed = false ↔
    i.opcode ∈ [0x3#4, 0x7#4, 0x8#4, 0x9#4, 0xA#4, 0xB#4, 0xC#4, 0xD#4, 0xE#4, 0xF#4] := by
  cases i <;> simp [Instr.wellFormed, Instr.opcode]

/-- Settles O34: a reserved command takes the exception, a word is reserved by its opcode, and a cycle's `cmd_err` follows
the precedence of R164. -/
theorem reservedOpcodesRaiseIllegalCommand : Obligations.ReservedOpcodesRaiseIllegalCommand := by
  refine ⟨fun s i hi => ?_, fun w => ?_, fun _ => rfl, fun s x => ?_⟩
  · have hreserved : i.wellFormed = false := by
      revert i
      decide
    have hexec := exec_of_not_wellFormed hreserved s
    exact ⟨by rw [hexec, State.takeException_eq], hexec⟩
  · rw [wellFormed_eq_false_iff_opcode, opcode_decode]
  · obtain ⟨hr, hx⟩ | ⟨hr, hv, hx⟩ | ⟨hr, hv, hx⟩ := cycle_cases x s
    · exact ⟨_, hx, by simp [hr]⟩
    · exact ⟨_, hx, by simp [hv]⟩
    · obtain ⟨t, ht, herr⟩ := exec_cmdErr (decode x.cmd) s
      exact ⟨t, hx.trans ht, by simpa only [hr, hv, true_and] using herr⟩

/-! ### Reset and idle cycles -/

/-- A cycle without `rst` and without a command is idle (R164). -/
theorem cycle_of_idle {x : PortInput} (hr : x.rst = false) (hv : x.cmdValid = false) (s : State) :
    cycle x s = .next s.idleCycle := by
  simp [cycle, hr, hv]

theorem State.resetCycle_eq (s : State) : s.resetCycle = { s with
    window := [], cursor := 0#6, sum1 := 0x000007C0#32, sum2 := 0x0001E840#32,
    rspValid := false, rsp := 0#32, cmdErr := false } := rfl

theorem State.idleCycle_eq (s : State) : s.idleCycle = { s with rspValid := false, rsp := 0#32, cmdErr := false } := rfl

/-- Settles O5: neither branch of R164's precedence above the command reads `cmd`. -/
theorem resetAndIdleCycles : Obligations.ResetAndIdleCycles :=
  ⟨fun s _ _ => (cycle_of_rst rfl s).trans (congrArg _ s.resetCycle_eq),
    fun s _ => (cycle_of_idle rfl rfl s).trans (congrArg _ s.idleCycle_eq)⟩

/-! ### The status outputs -/

/-- The status outputs read the two sums and nothing else (R78). -/
theorem State.statusOutputs_congr {s t : State} (h1 : t.sum1 = s.sum1) (h2 : t.sum2 = s.sum2) :
    t.digestO = digest s.sum1 s.sum2 ∧ t.vbitsO = vbits s.sum1 s.sum2 ∧ t.splitO = onSplit s.sum2 := by
  simp [State.digestO, State.vbitsO, State.splitO, h1, h2]

/-- Settles O33: the coming inputs are no sum, a query responds with its status output, and the ports a ROLL drives leave its
sums as they are. -/
theorem statusOutputsFollowTheState : Obligations.StatusOutputsFollowTheState := by
  refine ⟨fun s xs => ?_, fun s => ?_, fun s b => ?_⟩
  · exact State.statusOutputs_congr (s.withInputs_sum1 xs) (s.withInputs_sum2 xs)
  · obtain ⟨hdigest, hvbits, hsplit⟩ := State.statusOutputs_congr (s := s) rfl rfl
    rw [hdigest, hvbits, hsplit]
    exact ⟨_, _, _, exec_digest s, rfl, exec_vbits s, rfl, exec_onsplit s, rfl⟩
  · obtain ⟨-, -, hsplit⟩ := State.statusOutputs_congr (s.roll b).quiet_sum1 (s.roll b).quiet_sum2
    exact ⟨_, exec_roll b s, hsplit⟩

end Sys2Proof.Machine
end

section
/-! The proofs of the CREATE, UPDATE and ROLL family: what CREATE, NOP and ROLL do in full (R100, R102, R103), and the `sum1`
that UPDATE reads for `sum2` (R106). -/

namespace Sys2Proof.Machine

/-! ### The words of the three commands -/

/-- Every command but ROLL ignores the data bits of its word (R75). -/
theorem decode_opcode_append {i : Instr} (hroll : ∀ b, i ≠ .roll b) (d : Byte) : decode (i.opcode ++ d) = i := by
  unfold decode
  rw [opField_append]
  cases i with
  | roll b => exact absurd rfl (hroll b)
  | nop | create | digest | vbits | onsplit => rfl
  | reserved3 | reserved7 | reserved8 | reserved9 | reservedA | reservedB | reservedC | reservedD | reservedE
  | reservedF => rfl

theorem decode_roll (b : Byte) : decode (0x2#4 ++ b) = .roll b := by
  unfold decode
  rw [opField_append, dataField_append]
  rfl

/-- The word of a ROLL as the number that R73's table gives: the two fields share no bit, so they add. -/
theorem encode_roll (b : Byte) : encode (.roll b) = 0x200#12 + b.setWidth 12 := by
  have hb := b.isLt
  have hfields : (encode (.roll b)).toNat = 0x2 <<< 8 + b.toNat :=
    (BitVec.toNat_append 0x2#4 b).trans (Nat.shiftLeft_add_eq_or_of_lt hb 0x2).symm
  apply BitVec.eq_of_toNat_eq
  rw [hfields, BitVec.toNat_add, BitVec.toNat_setWidth, BitVec.toNat_ofNat]
  omega

/-! ### CREATE -/

/-- Settles O2: the cycle of a CREATE leaves the same state as a cycle of `rst = 1`. -/
theorem createGivesInitialState : Obligations.CreateGivesInitialState :=
  ⟨fun s => (exec_create s).trans (congrArg _ s.resetCycle_eq),
    fun s a => ⟨_, exec_create s, s.readSlot_initialise a⟩,
    decode_opcode_append (i := .create) nofun, rfl,
    fun s _ _ => cycle_of_rst rfl s⟩

/-! ### NOP -/

theorem exec_nop (s : State) : exec .nop s = .next s.idleCycle := rfl

/-- A cycle with `cmd_valid` and without `rst` runs the decoded command (R164). -/
theorem cycle_of_command {x : PortInput} (hr : x.rst = false) (hv : x.cmdValid = true) (s : State) :
    cycle x s = exec (decode x.cmd) s := by
  simp [cycle, hr, hv]

/-- Settles O18: a word of opcode 0 decodes to NOP, and NOP does what an idle cycle does. -/
theorem nopIsAnIdleCycle : Obligations.NopIsAnIdleCycle := by
  have hdecode : ∀ d : Byte, decode (0x0#4 ++ d) = .nop := decode_opcode_append (i := .nop) nofun
  refine ⟨fun s => (exec_nop s).trans (congrArg _ s.idleCycle_eq), hdecode, rfl, fun s d w => ?_⟩
  rw [cycle_of_command rfl rfl, hdecode, exec_nop, cycle_of_idle rfl rfl]

/-! ### UPDATE -/

/-- The new `sum1`, as a vector equation (R101). -/
theorem update_fst (s1 s2 : Word) (d b : Byte) : (update s1 s2 d b).1 = s1 + b.setWidth 32 - d.setWidth 32 := rfl

/-- The new `sum2` from the new `sum1`, with the factor 64 written first (R101, R106). -/
theorem update_snd_eq (s1 s2 : Word) (d b : Byte) :
    (update s1 s2 d b).2 = s2 + (update s1 s2 d b).1 - 64#32 * (d.setWidth 32 + 31#32) := by
  rw [update_snd, zextByte, BitVec.mul_comm]

/-- UPDATE keeps `sum1` only if the byte that enters is the one that leaves: two bytes never differ by 2^32. -/
theorem update_fst_eq_self_iff (s1 s2 : Word) (d b : Byte) : (update s1 s2 d b).1 = s1 ↔ b = d := by
  have hs1 := s1.isLt
  have hb := b.isLt
  have hd := d.isLt
  rw [← BitVec.toNat_inj, update_fst_toNat, ← BitVec.toNat_inj]
  omega

/-- Settles O21: the two readings of `sum2` differ by the change of `sum1`, and R106's numbers come from running the ROLL. -/
theorem updateReadsTheNewSum1 : Obligations.UpdateReadsTheNewSum1 := by
  refine ⟨fun s1 s2 d b => ⟨update_snd_eq s1 s2 d b, ?_⟩, _, exec_roll 0x41#8 State.reset, rfl⟩
  rw [update_snd_eq, sub_left_inj, add_right_inj, update_fst_eq_self_iff]

/-! ### ROLL -/

/-- What a ROLL leaves at every address of the window (R51, R53). -/
theorem State.roll_window_read (s : State) (b : Byte) (a : Nat) :
    (s.roll b).window.read a = if a = s.effectiveAddress.toNat then b else s.window.read a :=
  Memory.read_write s.window s.cursor.toNat b a

/-- Settles O19, clause by clause: the two sums are UPDATE's, the window is the store's, and the ports are silent. -/
theorem rollUpdatesStoresAndAdvances : Obligations.RollUpdatesStoresAndAdvances := by
  intro b s
  have hdecode : decode (0x200#12 + b.setWidth 12) = .roll b := encode_roll b ▸ decode_roll b
  have hstored : (s.roll b).readSlot s.cursor = b := (s.readSlot_roll b _).trans (if_pos rfl)
  have hothers (a : SlotAddr) (ha : a ≠ s.cursor) : (s.roll b).readSlot a = s.readSlot a :=
    (s.readSlot_roll b a).trans (if_neg ha)
  exact ⟨encode_roll b, hdecode, _, exec_roll b s, ⟨update_fst _ s.sum2 _ _, update_snd_eq _ _ _ _⟩,
    s.roll_window_read b, hstored, hothers, s.roll_cursor_toNat b, rfl, rfl, rfl, rfl⟩

end Sys2Proof.Machine
end

section
/-! The proofs of the digest, vbits and onSplit family: the three functions of the sums (R130, R132, R134), the queries that
respond with them (R131, R133, R135, R136), and the agreement of fresh instances (R140). -/

namespace Sys2Proof.Machine

/-! ### The digest -/

/-- A mask of the low `n` bits takes the remainder modulo `2^n`. -/
theorem toNat_and_lowMask (v : Word) {n : Nat} (hn : n ≤ 32) :
    (v &&& BitVec.ofNat 32 (2 ^ n - 1)).toNat = v.toNat % 2 ^ n := by
  have hmask : 2 ^ n - 1 < 2 ^ 32 := by
    have := Nat.pow_le_pow_right (n := 2) (by decide) hn
    omega
  rw [BitVec.toNat_and, BitVec.toNat_ofNat, Nat.mod_eq_of_lt hmask, Nat.and_two_pow_sub_one_eq_mod]

/-- R130's `digest = {sum1[15:0], sum2[15:0]}`: the shift clears the bits that the mask keeps. -/
theorem digest_eq_append (s1 s2 : Word) : digest s1 s2 = s1.extractLsb' 0 16 ++ s2.extractLsb' 0 16 := by
  have hlow : (s2 &&& Config.digestMask).toNat = s2.toNat % 2 ^ 16 := toNat_and_lowMask s2 (n := 16) (by decide)
  have hhigh : (s1 <<< Config.digestShift).toNat = (s1.toNat % 2 ^ 16) <<< 16 := by
    rw [BitVec.toNat_shiftLeft, Config.digestShift, Nat.shiftLeft_eq, Nat.shiftLeft_eq]
    omega
  apply BitVec.eq_of_toNat_eq
  rw [digest, BitVec.toNat_or, hlow, hhigh, BitVec.toNat_append, BitVec.extractLsb'_toNat, BitVec.extractLsb'_toNat,
    Nat.shiftRight_zero, Nat.shiftRight_zero]

theorem digest_toNat (s1 s2 : Word) : (digest s1 s2).toNat = s1.toNat % 65536 * 65536 + s2.toNat % 65536 := by
  have hlow : s2.toNat % 2 ^ 16 < 2 ^ 16 := Nat.mod_lt _ (by decide)
  rw [digest_eq_append, BitVec.toNat_append, BitVec.extractLsb'_toNat, BitVec.extractLsb'_toNat, Nat.shiftRight_zero,
    Nat.shiftRight_zero, ← Nat.shiftLeft_add_eq_or_of_lt hlow, Nat.shiftLeft_eq]
  rfl

/-- Bits 15 to 0 of the digest are those of `sum2`. -/
theorem digest_getLsbD_low (s1 s2 : Word) {i : Nat} (hi : i < 16) : (digest s1 s2).getLsbD i = s2.getLsbD i := by
  rw [digest_eq_append]
  exact BitVec.getLsbD_append.trans (by simp [hi])

/-- Bits 31 to 16 of the digest are bits 15 to 0 of `sum1`. -/
theorem digest_getLsbD_high (s1 s2 : Word) {j : Nat} (hj : j < 16) :
    (digest s1 s2).getLsbD (16 + j) = s1.getLsbD j := by
  rw [digest_eq_append]
  exact BitVec.getLsbD_append.trans (by simp [hj])

/-- Settles O23: the digest is two 16-bit halves side by side. -/
theorem digestIsLowHalvesOfBothSums : Obligations.DigestIsLowHalvesOfBothSums := by
  refine fun s1 s2 => ⟨rfl, ?_, ?_, digest_toNat s1 s2⟩
  · rw [digest_eq_append, BitVec.extractLsb'_append_eq_left]
  · rw [digest_eq_append, BitVec.extractLsb'_append_eq_right]

/-! ### vbits -/

/-- What R132 counts: ones up to `cto v`, then a zero or the end of the word. -/
theorem cto_spec (v : Word) :
    cto v ≤ 32 ∧ (∀ i < cto v, v.getLsbD i = true) ∧ (cto v < 32 → v.getLsbD (cto v) = false) := by
  have hcto : cto v = onesFrom v 32 0 := rfl
  rw [hcto]
  simpa only [Nat.zero_add] using onesFrom_spec v 32 0

/-- The zeros that a logical shift brings in end the run. -/
theorem cto_ushiftRight_le (v : Word) {n : Nat} (hn : n ≤ 32) : cto (v >>> n) ≤ 32 - n := by
  obtain ⟨-, hones, -⟩ := cto_spec (v >>> n)
  by_contra hlong
  have hone := hones (32 - n) (by omega)
  rw [BitVec.getLsbD_ushiftRight, Nat.add_sub_cancel' hn, BitVec.getLsbD_of_ge v 32 le_rfl] at hone
  cases hone

/-- The sum of R132 fits in its 6 bits. -/
theorem vbits_toNat (s1 s2 : Word) : (vbits s1 s2).toNat = 13 + cto (digest s1 s2 >>> 13) := by
  have hle := cto_ushiftRight_le (digest s1 s2) (n := 13) (by decide)
  rw [vbits, BitVec.toNat_ofNat]
  exact Nat.mod_eq_of_lt (by simp only [Config.splitBits]; omega)

/-- The range of R133. -/
theorem vbits_range (s1 s2 : Word) : 13 ≤ (vbits s1 s2).toNat ∧ (vbits s1 s2).toNat ≤ 32 := by
  have hle := cto_ushiftRight_le (digest s1 s2) (n := 13) (by decide)
  rw [vbits_toNat]
  omega

/-- Settles O24: the `k` of R132 is the run of ones of the shifted digest, whose bit `i` is bit `13 + i` of the digest. -/
theorem vbitsCountsOnesFromDigestBit13 : Obligations.VbitsCountsOnesFromDigestBit13 := by
  intro s1 s2
  obtain ⟨-, hones, hzero⟩ := cto_spec (digest s1 s2 >>> 13)
  simp only [BitVec.getLsbD_ushiftRight] at hones hzero
  exact ⟨vbits_toNat s1 s2,
    ⟨_, cto_ushiftRight_le _ (by decide), vbits_toNat s1 s2, hones, fun hlt => hzero (by omega)⟩,
    fun i hi => digest_getLsbD_low s1 s2 (by omega), fun j hj => digest_getLsbD_high s1 s2 hj⟩

/-! ### onSplit -/

/-- The mask of R134 is all ones after the `and` exactly when the remainder modulo `2^13` is the largest. -/
theorem onSplit_iff_mod (s2 : Word) : onSplit s2 = true ↔ s2.toNat % 8192 = 8191 := by
  have hlow : (s2 &&& Config.splitMask).toNat = s2.toNat % 2 ^ 13 := toNat_and_lowMask s2 (n := 13) (by decide)
  rw [onSplit, beq_iff_eq, ← BitVec.toNat_inj, hlow]
  rfl

theorem onSplit_iff_extract (s2 : Word) : onSplit s2 = true ↔ s2.extractLsb' 0 13 = 0x1FFF#13 := by
  rw [onSplit_iff_mod, ← BitVec.toNat_inj, BitVec.extractLsb'_toNat, Nat.shiftRight_zero]
  rfl

theorem onSplit_iff_bits (s2 : Word) : onSplit s2 = true ↔ ∀ i < 13, s2.getLsbD i = true := by
  have hones {i : Nat} (hi : i < 13) : (0x1FFF#13).getLsbD i = true :=
    (Nat.testBit_two_pow_sub_one 13 i).trans (decide_eq_true hi)
  rw [onSplit_iff_extract, BitVec.eq_of_getLsbD_eq_iff]
  refine forall₂_congr fun i hi => ?_
  rw [hones hi, BitVec.getLsbD_extractLsb', decide_eq_true hi, Bool.true_and, Nat.zero_add]

/-- Settles O25: every form of R134 says that the remainder modulo `2^13` is 8191. -/
theorem onSplitTestsLow13BitsOfSum2 : Obligations.OnSplitTestsLow13BitsOfSum2 :=
  fun s2 => ⟨beq_iff_eq, onSplit_iff_extract s2, onSplit_iff_bits s2, onSplit_iff_mod s2⟩

/-! ### The queries -/

theorem State.respond_eq (s : State) (v : Word) : s.respond v = { s with rspValid := true, rsp := v, cmdErr := false } := rfl

/-- Each query responds with one function of the two sums, in every state (R136). -/
theorem exec_query {i : Instr} (hi : i ∈ [Instr.digest, Instr.vbits, Instr.onsplit]) :
    ∃ f : Word → Word → Word, ∀ s, exec i s = .next (s.respond (f s.sum1 s.sum2)) := by
  simp only [List.mem_cons, List.not_mem_nil, or_false] at hi
  obtain rfl | rfl | rfl := hi
  · exact ⟨_, exec_digest⟩
  · exact ⟨fun s1 s2 => (vbits s1 s2).setWidth 32, exec_vbits⟩
  · exact ⟨fun _ s2 => if onSplit s2 then 1#32 else 0#32, exec_onsplit⟩

/-- Settles O29: a response leaves the sums, so the same function of them answers the second time. -/
theorem queriesArePureFunctionsOfTheSums : Obligations.QueriesArePureFunctionsOfTheSums := by
  intro i hi s s' h1 h2
  obtain ⟨f, hf⟩ := exec_query hi
  refine ⟨_, _, _, hf s, hf s', hf _, ?_, rfl, ⟨rfl, rfl, rfl, rfl⟩, rfl, rfl, rfl⟩
  rw [State.respond_rsp, State.respond_rsp, h1, h2]

/-- Settles O27: the response is `vbits` with 26 zeros above it, so it is the same number. -/
theorem vbitsRespondsAndChangesNothing : Obligations.VbitsRespondsAndChangesNothing := by
  refine ⟨fun s => (exec_vbits s).trans (congrArg _ (s.respond_eq _)), decode_opcode_append (i := .vbits) nofun, rfl,
    fun s => ⟨_, exec_vbits s, ?_⟩⟩
  obtain ⟨hmin, hmax⟩ := vbits_range s.sum1 s.sum2
  have hnat : ((vbits s.sum1 s.sum2).setWidth 32).toNat = (vbits s.sum1 s.sum2).toNat :=
    BitVec.toNat_setWidth_of_le (by decide)
  rw [State.respond_rsp, hnat, ← BitVec.toNat_inj, ← BitVec.toNat_inj, BitVec.extractLsb'_toNat, BitVec.extractLsb'_toNat,
    hnat, Nat.shiftRight_eq_div_pow, Nat.shiftRight_eq_div_pow]
  refine ⟨?_, ?_, hmin, hmax⟩
  · omega
  · rw [BitVec.toNat_ofNat]; omega

/-- A one-bit result, zero-extended, has the bit at place 0 and zeros above it. -/
theorem zextBool_fields (b : Bool) :
    (zextBool b).getLsbD 0 = b ∧ (zextBool b).extractLsb' 1 31 = 0#31 := by
  cases b <;> decide

/-- Settles O28: the response is the predicate, zero-extended; in `S0` it is false. -/
theorem onsplitRespondsAndChangesNothing : Obligations.OnsplitRespondsAndChangesNothing :=
  ⟨fun s => (exec_onsplit s).trans (congrArg _ (s.respond_eq _)), decode_opcode_append (i := .onsplit) nofun, rfl,
    fun s => ⟨_, exec_onsplit s, zextBool_fields (onSplit s.sum2)⟩, _, exec_onsplit State.reset, by decide⟩

/-! ### Fresh instances -/

/-- A run begins with the cycle of its first input. -/
theorem runInputs_cons {x : PortInput} {xs : List PortInput} {s t : State} (h : cycle x (s.withInputs xs) = .next t) :
    runInputs (x :: xs) s = Host.Core.run Sys2Proof.core xs.length t :=
  run_succ ((step_cons s x xs).trans h) xs.length

/-- After a CREATE the run goes on as from the reset state, whatever the state was (R140, R180). -/
theorem runInputs_create (xs : List PortInput) (s : State) :
    runInputs (commandCycle .create :: xs) s = runInputs xs State.reset := by
  have hdecode : decode (commandCycle .create).cmd = .create := decode_opcode_append (i := .create) nofun 0x00#8
  have hcycle : cycle (commandCycle .create) (s.withInputs xs) = .next (State.reset.withInputs xs) := by
    rw [cycle_of_command rfl rfl, hdecode, exec_create]
    rfl
  exact runInputs_cons hcycle

/-- Settles O41: both runs are the run from the reset state. -/
theorem freshInstancesAgree : Obligations.FreshInstancesAgree :=
  fun s s' xs => (runInputs_create xs s).trans (runInputs_create xs s').symm

/-! ### Reachable states -/

/-- All that a step can do to the four attributes: the initial ones, those of a ROLL, or no change. -/
theorem step_sameArch_cases {s t : State} (h : step s = .next t) :
    t.SameArch State.reset ∨ (∃ b, t.SameArch (s.roll b)) ∨ t.SameArch s := by
  have hnext {u : State} (hu : cycle s.sampledInput s.consumeInput = .next u) : t = u :=
    Host.Outcome.next.inj (h.symm.trans hu)
  obtain ⟨-, hx⟩ | ⟨-, -, hx⟩ | ⟨-, -, hx⟩ := cycle_cases s.sampledInput s.consumeInput
  case inl => exact .inl (hnext hx ▸ ⟨rfl, rfl, rfl, rfl⟩)
  case inr.inl => exact .inr (.inr (hnext hx ▸ ⟨rfl, rfl, rfl, rfl⟩))
  case inr.inr =>
    obtain ⟨-, hi⟩ | ⟨b, -, hi⟩ | ⟨-, hi⟩ | ⟨v, -, hi⟩ | ⟨op, -, hi⟩ :=
      exec_shapes (decode s.sampledInput.cmd) s.consumeInput
    · exact .inl (hnext (hx.trans hi) ▸ ⟨rfl, rfl, rfl, rfl⟩)
    · exact .inr (.inl ⟨b, hnext (hx.trans hi) ▸ ⟨rfl, rfl, rfl, rfl⟩⟩)
    all_goals exact .inr (.inr (hnext (hx.trans hi) ▸ ⟨rfl, rfl, rfl, rfl⟩))

/-- A property of the four attributes that holds at reset and that ROLL keeps holds in every reachable state. -/
theorem State.Reachable.of_roll_keeps {P : State → Prop} (hcongr : ∀ {s t : State}, t.SameArch s → P s → P t)
    (hreset : P State.reset) (hroll : ∀ s b, P s → P (s.roll b)) {s : State} (h : s.Reachable) : P s := by
  induction h with
  | afterReset xs => exact hcongr (s := State.reset) ⟨rfl, rfl, rfl, rfl⟩ hreset
  | @afterStep s t _ hstep ih =>
    obtain ht | ⟨b, ht⟩ | ht := step_sameArch_cases hstep
    · exact hcongr ht hreset
    · exact hcongr ht (hroll s b ih)
    · exact hcongr ht ih

/-! ### The bound of `sum1` in reachable states -/

/-- The age order reads the window and the cursor alone. -/
theorem State.ageOrder_congr {s t : State} (h : t.SameArch s) : t.ageOrder = s.ageOrder := by
  obtain ⟨hwindow, hcursor, -, -⟩ := h
  unfold State.ageOrder State.ageByte State.readSlot
  rw [hwindow, hcursor]

/-- After a ROLL each byte is one place older, and the byte at place 63 is the new one. -/
theorem State.ageByte_roll (s : State) (b : Byte) {j : Nat} (hj : j < 64) :
    (s.roll b).ageByte j = if j = 63 then b else s.ageByte (j + 1) := by
  have hslot : s.cursor + 1#6 + BitVec.ofNat 6 j = s.cursor + BitVec.ofNat 6 (j + 1) := by
    rw [BitVec.ofNat_add, BitVec.add_assoc, BitVec.add_comm 1#6]
  have hcursor : s.cursor + BitVec.ofNat 6 (j + 1) = s.cursor ↔ j = 63 := by
    rw [add_eq_left, ← BitVec.toNat_inj, BitVec.toNat_ofNat]
    change (j + 1) % 64 = 0 ↔ j = 63
    omega
  rw [State.ageByte, State.readSlot_roll, State.roll_cursor, hslot, State.ageByte]
  simp only [hcursor]

/-- One ROLL in age order (R36): the oldest byte leaves, the new one is the youngest. -/
theorem State.ageOrder_roll (s : State) (b : Byte) : (s.roll b).ageOrder = s.ageOrder.tail ++ [b] := by
  have hlast : (s.roll b).ageByte 63 = b := s.ageByte_roll b (by decide)
  have hother : (List.range 63).map (s.roll b).ageByte = (List.range 63).map (s.ageByte ∘ Nat.succ) := by
    refine List.map_congr_left fun j hj => ?_
    have hlt := List.mem_range.mp hj
    rw [s.ageByte_roll b (by omega), if_neg (by omega), Function.comp_apply]
  have hafter : (s.roll b).ageOrder = (List.range 63).map (s.roll b).ageByte ++ [(s.roll b).ageByte 63] := by
    rw [State.ageOrder, List.range_succ, List.map_append, List.map_singleton]
  have hbefore : s.ageOrder.tail = (List.range 63).map (s.ageByte ∘ Nat.succ) := by
    rw [State.ageOrder, List.range_succ_eq_map, List.map_cons, List.tail_cons, List.map_map]
  rw [hafter, hother, hlast, hbefore]

/-- The oldest byte is the one at the cursor (R22, R36). -/
theorem State.ageOrder_eq_cons (s : State) : s.ageOrder = s.readSlot s.cursor :: s.ageOrder.tail := by
  have holdest : s.ageByte 0 = s.readSlot s.cursor := congrArg s.readSlot (BitVec.add_zero s.cursor)
  rw [State.ageOrder, List.range_succ_eq_map, List.map_cons, List.tail_cons, holdest]

theorem State.length_ageOrder (s : State) : s.ageOrder.length = 64 := by
  rw [State.ageOrder, List.length_map, List.length_range]

theorem offsetSum_concat (bs : List Byte) (b : Byte) : offsetSum (bs ++ [b]) = offsetSum bs + (b.toNat + 31) := by
  induction bs with
  | nil => simp [offsetSum]
  | cons c cs ih => simp only [List.cons_append, offsetSum, ih]; omega

/-- Each byte adds at most `255 + 31`. -/
theorem offsetSum_le (bs : List Byte) : offsetSum bs ≤ 286 * bs.length := by
  induction bs with
  | nil => rfl
  | cons c cs ih =>
    have hc := c.isLt
    simp only [offsetSum, List.length_cons]
    omega

/-- R30's closed form of `sum1`, the half of `State.ClosedForm` that bounds the digest. -/
def State.Sum1ClosedForm (s : State) : Prop := s.sum1 = BitVec.ofNat 32 (offsetSum s.ageOrder)

theorem State.closedForm_sum1 {s : State} (h : s.ClosedForm) : s.Sum1ClosedForm := h.1

/-- UPDATE takes the dropped byte's part out of the sum and puts the new byte's in. -/
theorem State.Sum1ClosedForm.roll {s : State} (h : s.Sum1ClosedForm) (b : Byte) : (s.roll b).Sum1ClosedForm := by
  rw [State.Sum1ClosedForm, s.ageOrder_eq_cons, offsetSum] at h
  rw [State.Sum1ClosedForm, s.ageOrder_roll, offsetSum_concat, State.roll_sum1, update_fst, h]
  simp only [BitVec.ofNat_add, BitVec.ofNat_toNat]
  ring

theorem State.Sum1ClosedForm.of_sameArch {s t : State} (hsame : t.SameArch s) (h : s.Sum1ClosedForm) :
    t.Sum1ClosedForm := by
  have ⟨_, _, hsum1, _⟩ := hsame
  rw [State.Sum1ClosedForm, hsum1, State.ageOrder_congr hsame]
  exact h

/-- `INIT_SUM1` is the sum of a window of zero bytes (R7). -/
theorem State.sum1ClosedForm_reset : State.reset.Sum1ClosedForm := by
  unfold State.Sum1ClosedForm
  decide

theorem State.Reachable.sum1ClosedForm {s : State} (h : s.Reachable) : s.Sum1ClosedForm :=
  h.of_roll_keeps State.Sum1ClosedForm.of_sameArch State.sum1ClosedForm_reset fun _ b hs => hs.roll b

/-- The largest `sum1` of R30 is that of a window of 64 bytes 0xFF. -/
theorem State.Sum1ClosedForm.sum1_le {s : State} (h : s.Sum1ClosedForm) : s.sum1.toNat ≤ 18304 := by
  have hle := offsetSum_le s.ageOrder
  rw [s.length_ageOrder] at hle
  rw [h, BitVec.toNat_ofNat]
  exact (Nat.mod_le _ _).trans hle

/-- Bit 31 of the digest is bit 15 of `sum1`, above every sum of 64 bytes. -/
theorem State.Sum1ClosedForm.digest_getLsbD_31 {s : State} (h : s.Sum1ClosedForm) :
    (digest s.sum1 s.sum2).getLsbD 31 = false := by
  have hbit := digest_getLsbD_high s.sum1 s.sum2 (j := 15) (by decide)
  have hle := h.sum1_le
  exact hbit.trans (Nat.testBit_lt_two_pow (by omega))

/-- Settles O26: a response leaves the sums, and in a reachable state `sum1` is below `2^15`. -/
theorem digestRespondsAndChangesNothing : Obligations.DigestRespondsAndChangesNothing :=
  ⟨fun s => (exec_digest s).trans (congrArg _ (s.respond_eq _)), decode_opcode_append (i := .digest) nofun, rfl,
    fun s => ⟨_, _, exec_digest s, exec_digest _, rfl⟩, ⟨_, exec_digest State.reset, queries_of_initial_sums.1⟩,
    fun s h => ⟨_, exec_digest s, h.sum1ClosedForm.digest_getLsbD_31⟩⟩

end Sys2Proof.Machine
end

section
/-! The proofs of the exceptions family: the commands that raise nothing (R160). -/

namespace Sys2Proof.Machine

/-- Settles O35: `cmd_err` is 1 only for a reserved command, and the six commands of R160 are not reserved. -/
theorem legalCommandsNeverRaise : Obligations.LegalCommandsNeverRaise := by
  intro i s hlegal
  obtain ⟨t, ht, herr⟩ := exec_cmdErr i s
  have hnot : ¬ t.cmdErr = true := fun hraised => Bool.false_ne_true ((herr.mp hraised).symm.trans hlegal)
  exact ⟨t, ht, Bool.eq_false_of_not_eq_true hnot⟩

end Sys2Proof.Machine
end

section
/-! The proofs of the reset and hazards family: reset and CREATE forget the instance (R180), the power-on state too (R181). -/

namespace Sys2Proof.Machine

/-- Everything a reset cycle leaves is the reset state's, but for the inputs still to come (R180). -/
theorem State.resetCycle_eq_reset (s : State) : s.resetCycle = State.reset.withInputs s.inputs := rfl

/-- A cycle of `rst = 1` forgets the state before it (R180). -/
theorem cycle_rst_eq_reset {x : PortInput} (hr : x.rst = true) (s : State) :
    cycle x s = .next (State.reset.withInputs s.inputs) :=
  (cycle_of_rst hr s).trans (congrArg _ s.resetCycle_eq_reset)

/-- CREATE forgets the state before it as a reset cycle does (R180). -/
theorem exec_create_eq_reset (s : State) : exec .create s = .next (State.reset.withInputs s.inputs) :=
  (exec_create s).trans (congrArg _ s.resetCycle_eq_reset)

/-- Settles O3: a reset cycle does what CREATE does, and CREATE takes only the coming inputs from the earlier state. -/
theorem resetAndCreateAgreeAndForgetState : Obligations.ResetAndCreateAgreeAndForgetState := by
  intro s s' v w
  have hcreate : exec .create s = .next (State.reset.withInputs s.inputs) := exec_create_eq_reset s
  have hother : exec .create (s'.withInputs s.inputs) = .next (State.reset.withInputs s.inputs) :=
    exec_create_eq_reset (s'.withInputs s.inputs)
  exact ⟨cycle_of_rst rfl s, hcreate, hother.trans hcreate.symm⟩

/-- At power-on no input is presented yet, so the reset state takes over none (R181). -/
theorem State.reset_withInputs_powerOn : State.reset.withInputs State.powerOn.inputs = State.reset := rfl

/-- Settles O4: what holds from every state, at the power-on state, whose free values are forgotten. -/
theorem powerOnNeedsOneResetOrCreate : Obligations.PowerOnNeedsOneResetOrCreate := by
  refine ⟨fun v w => ?_, ?_, fun s v w => cycle_rst_eq_reset rfl s⟩
  · rw [cycle_rst_eq_reset rfl, State.reset_withInputs_powerOn]
  · rw [exec_create_eq_reset, State.reset_withInputs_powerOn]

end Sys2Proof.Machine
end

section
/-! The proofs of the statements that belong to no one instruction's family: the round trip of the encoder (section 9 of
30_encoding.md), the step and the run as functions (R80, R58), the two invariants that every step keeps (R30, log 4) and
what follows from them of reachable states (R31, R138), the stream and its window (R36, R107, R111), and the assembler (R82,
R83). -/

namespace Sys2Proof.Machine

/-! ### The words of a command -/

/-- The encoder writes 0x00 for every command but ROLL (R75; log 8). -/
theorem dataByte_of_not_roll {i : Instr} (hroll : ∀ b, i ≠ .roll b) : i.dataByte = 0x00#8 := by
  cases i with
  | roll b => exact absurd rfl (hroll b)
  | nop | create | digest | vbits | onsplit => rfl
  | reserved3 | reserved7 | reserved8 | reserved9 | reservedA | reservedB | reservedC | reservedD | reservedE
  | reservedF => rfl

/-- Opcode 2 is ROLL's alone (R73). -/
theorem opcode_eq_two_iff (i : Instr) : i.opcode = 0x2#4 ↔ ∃ b, i = .roll b := by
  cases i <;> simp [Instr.opcode]

/-- Opcode 1 is CREATE's alone (R73). -/
theorem opcode_eq_one_iff (i : Instr) : i.opcode = 0x1#4 ↔ i = .create := by
  cases i <;> simp [Instr.opcode]

theorem decode_encode (i : Instr) : decode (encode i) = i := by
  by_cases hroll : ∃ b, i = .roll b
  · obtain ⟨b, rfl⟩ := hroll
    exact decode_roll b
  · exact decode_opcode_append (not_exists.mp hroll) i.dataByte

/-- Settles O7: ROLL keeps its byte in the data bits, and every other command is decoded by its opcode alone. -/
theorem decodeEncodeIsIdentity : Obligations.DecodeEncodeIsIdentity := decode_encode

/-- A word of opcode 2 is a ROLL of its data byte. -/
theorem decode_of_opField_eq_two {w : CmdWord} (hop : opField w = 0x2#4) : decode w = .roll (dataField w) :=
  (congrArg decode ((word_eq_fields w).trans (by rw [hop]))).trans (decode_roll _)

/-- A word decodes to a ROLL exactly when its opcode is 2. -/
theorem decode_ne_roll_iff (w : CmdWord) : (∀ b, decode w ≠ .roll b) ↔ opField w ≠ 0x2#4 := by
  rw [← opcode_decode, Ne, opcode_eq_two_iff, not_exists]

/-- The canonical word of what a word decodes to: the data bits stay for ROLL and become 0x00 for every other opcode. -/
theorem encode_decode (w : CmdWord) :
    encode (decode w) = opField w ++ (if opField w = 0x2#4 then dataField w else 0x00#8) := by
  have hfields : encode (decode w) = opField w ++ (decode w).dataByte := by rw [encode, opcode_decode]
  split
  case isTrue hop => rw [hfields, decode_of_opField_eq_two hop, Instr.dataByte]
  case isFalse hop => rw [hfields, dataByte_of_not_roll ((decode_ne_roll_iff w).mpr hop)]

/-- Two words with the same opcode are equal exactly when their data bits are. -/
theorem append_data_eq_iff (op : Opcode) (d d' : Byte) : op ++ d = op ++ d' ↔ d = d' :=
  ⟨fun h => by simpa using congrArg dataField h, fun h => by rw [h]⟩

/-- Settles O8: a word that is not ROLL's comes back with its data bits cleared. -/
theorem encodeDecodeIsIdentityOnCanonicalWords : Obligations.EncodeDecodeIsIdentityOnCanonicalWords := by
  intro w
  have hword : encode (decode w) = w ↔ (if opField w = 0x2#4 then dataField w else 0x00#8) = dataField w := by
    rw [← append_data_eq_iff (opField w), ← word_eq_fields, encode_decode]
  rw [hword]
  split
  case isTrue hop => simp [hop]
  case isFalse hop => simp [hop, eq_comm]

/-- The mask 0xF00 keeps the opcode and clears the data bits (R73). -/
theorem fields_and_opcodeMask (op : Opcode) (d : Byte) : (op ++ d) &&& 0xF00#12 = op ++ 0x00#8 := by
  have hmask : 0xF00#12 = BitVec.allOnes 4 ++ 0#8 := rfl
  rw [hmask, BitVec.and_append, BitVec.and_allOnes, BitVec.and_zero]

/-- Settles O9: both words have the same opcode field, and the mask takes the data bits out of both. -/
theorem decodeKeepsEveryOpcode : Obligations.DecodeKeepsEveryOpcode := by
  refine fun w => ⟨opcode_decode w, ?_⟩
  have hword : w &&& 0xF00#12 = opField w ++ 0x00#8 :=
    (congrArg (· &&& 0xF00#12) (word_eq_fields w)).trans (fields_and_opcodeMask _ _)
  rw [encode_decode, fields_and_opcodeMask, hword]

/-- Settles O6: each listed word is an opcode beside a data byte that only ROLL reads. -/
theorem commandWordsDecodeAsListed : Obligations.CommandWordsDecodeAsListed :=
  ⟨decode_opcode_append (i := .nop) nofun 0x00#8, decode_opcode_append (i := .nop) nofun 0xFF#8,
    decode_opcode_append (i := .create) nofun 0xAA#8, decode_roll 0x41#8, decode_roll 0xFF#8,
    decode_opcode_append (i := .reserved3) nofun 0x00#8, decode_opcode_append (i := .digest) nofun 0xC3#8,
    decode_opcode_append (i := .vbits) nofun 0x00#8, decode_opcode_append (i := .onsplit) nofun 0x00#8,
    decode_opcode_append (i := .reserved7) nofun 0x00#8, decode_opcode_append (i := .reserved8) nofun 0x00#8,
    decode_opcode_append (i := .reservedF) nofun 0x55#8⟩

/-- The opcode of a word that is not ROLL's decides the command. -/
theorem decode_data_irrelevant {op : Opcode} (hop : op ≠ 0x2#4) (d d' : Byte) : decode (op ++ d) = decode (op ++ d') := by
  have hroll : ∀ b, decode (op ++ d) ≠ .roll b := (decode_ne_roll_iff _).mpr (by rwa [opField_append])
  have hopcode : (decode (op ++ d)).opcode = op := by rw [opcode_decode, opField_append]
  have hother := decode_opcode_append hroll d'
  rw [hopcode] at hother
  exact hother.symm

/-- Settles O10: the decoder's two cases, the encoder's data byte, and what ROLL does with its operand (R102). -/
theorem onlyRollUsesDataBits : Obligations.OnlyRollUsesDataBits := by
  refine ⟨decode_roll, fun op d d' hop => decode_data_irrelevant hop d d', fun i hroll => ?_, fun d s => ?_⟩
  · rw [encode, dataField_append, dataByte_of_not_roll hroll]
  · exact ⟨_, exec_roll d s, (s.readSlot_roll d s.cursor).trans (if_pos rfl), update_fst _ s.sum2 _ _⟩

/-! ### What a step performs -/

/-- A step on a list of inputs that is not empty is the cycle of its first input. -/
theorem step_of_inputs_cons {s : State} {x : PortInput} {xs : List PortInput} (h : s.inputs = x :: xs) :
    step s = cycle x (s.withInputs xs) := by
  rw [step, State.sampledInput, State.consumeInput, h]
  rfl

/-- Settles O11: the precedence of R164 leaves the command. -/
theorem stepRunsDecodedCommand : Obligations.StepRunsDecodedCommand :=
  fun _ _ _ hinputs hr hv => (step_of_inputs_cons hinputs).trans (cycle_of_command hr hv _)

/-- Settles O12: with nothing to sample the block sees an idle cycle (log 3). -/
theorem stepWithNothingPresentedIsIdle : Obligations.StepWithNothingPresentedIsIdle := by
  intro s hinputs
  have hself : s.withInputs [] = s := by rw [← hinputs]; rfl
  have hidle := step_nil s
  rwa [hself] at hidle

/-- A command word fits in every width of at least 12 bits, so the port carries the word itself (R72; log 9). -/
theorem State.withFetchWord_toNat (s : State) {n : Nat} (hn : 12 ≤ n) (w : CmdWord) :
    s.withFetchWord n w.toNat = s.presentCommand w := by
  have hfits : w.toNat < 2 ^ n := w.isLt.trans_le (Nat.pow_le_pow_right (by decide) hn)
  rw [State.withFetchWord, Nat.mod_eq_of_lt hfits, BitVec.ofNat_toNat, BitVec.setWidth_eq]

/-- A word that is presented is decoded and run by the next step. -/
theorem step_presentCommand (s : State) (w : CmdWord) :
    step (s.presentCommand w) = exec (decode w) (s.withInputs s.inputs.tail) :=
  (step_of_inputs_cons (s.presentCommand_inputs w)).trans (cycle_of_command rfl rfl _)

/-- Settles O13: the encoder's word arrives whole and decodes to its command. -/
theorem presentedWordRunsItsCommand : Obligations.PresentedWordRunsItsCommand := by
  intro i s n hn
  rw [s.withFetchWord_toNat hn, step_presentCommand, decode_encode]
  rfl

/-- Settles O14: reset, idle and then the row of the command that the opcode selects (R80). -/
theorem stepIsTheCompleteStepFunction : Obligations.StepIsTheCompleteStepFunction := by
  intro s x xs
  rw [step_cons]
  obtain ⟨hr, hx⟩ | ⟨hr, hv, hx⟩ | ⟨hr, hv, hx⟩ := cycle_cases x (s.withInputs xs)
  · rw [hx]; simp only [hr, if_true]; rfl
  · rw [hx]; simp only [hr, hv, if_true, Bool.false_eq_true, if_false]; rfl
  · have hop : x.cmd.extractLsb' 8 4 = (decode x.cmd).opcode := (opcode_decode x.cmd).symm
    rw [hx]
    simp only [hr, hv, hop, Bool.false_eq_true, Bool.true_eq_false, if_false]
    cases hi : decode x.cmd with
    | roll b =>
      have hdata : b = x.cmd.extractLsb' 0 8 :=
        Instr.roll.inj (hi.symm.trans (decode_of_opField_eq_two (hop.trans (congrArg Instr.opcode hi))))
      rw [hdata]; rfl
    | nop | create | digest | vbits | onsplit => rfl
    | reserved3 | reserved7 | reserved8 | reserved9 | reservedA | reservedB | reservedC | reservedD | reservedE
    | reservedF => rfl

/-- The ports of the cycle before are overwritten by every command, and none reads them (log 2). -/
theorem exec_drivePorts (i : Instr) (s : State) (v : Bool) (r : Word) (e : Bool) :
    exec i (s.drivePorts v r e) = exec i s := by
  cases i <;> rfl

theorem cycle_drivePorts (x : PortInput) (s : State) (v : Bool) (r : Word) (e : Bool) :
    cycle x (s.drivePorts v r e) = cycle x s := by
  unfold cycle
  rw [exec_drivePorts]
  rfl

/-- Settles O17: the step samples the same input and its cycle reads no port of the cycle before. -/
theorem outputsAreNotLatched : Obligations.OutputsAreNotLatched :=
  fun s v r e => cycle_drivePorts s.sampledInput s.consumeInput v r e

/-! ### Cycles and runs -/

/-- A command hands on the inputs to come, whatever they are (log 1). -/
theorem exec_withInputs {i : Instr} {s t : State} (h : exec i s = .next t) (xs : List PortInput) :
    exec i (s.withInputs xs) = .next (t.withInputs xs) := by
  cases i <;> exact Host.Outcome.next.inj h ▸ rfl

/-- So does a cycle (R80). -/
theorem cycle_withInputs {x : PortInput} {s t : State} (h : cycle x s = .next t) (xs : List PortInput) :
    cycle x (s.withInputs xs) = .next (t.withInputs xs) := by
  obtain ⟨hr, hx⟩ | ⟨hr, hv, hx⟩ | ⟨hr, hv, hx⟩ := cycle_cases x s
  · rw [cycle_of_rst hr, ← Host.Outcome.next.inj (hx.symm.trans h)]; rfl
  · rw [cycle_of_idle hr hv, ← Host.Outcome.next.inj (hx.symm.trans h)]; rfl
  · rw [cycle_of_command hr hv, exec_withInputs (hx.symm.trans h)]

/-- Every cycle answers a next state (R74). -/
theorem cycle_next (x : PortInput) (s : State) : ∃ t, cycle x s = .next t := by
  obtain ⟨t, ht, -⟩ := responseOfEveryCycle s x
  exact ⟨t, ht⟩

theorem step_next (s : State) : ∃ t, step s = .next t := cycle_next _ _

/-- Settles O15, by induction on the number of steps: each of them answers a next state. -/
theorem everyRunGoesOn : Obligations.EveryRunGoesOn := by
  refine ⟨step_next, fun n => ?_⟩
  induction n with
  | zero => exact fun s => ⟨s, rfl⟩
  | succ n ih =>
    intro s
    obtain ⟨t, ht⟩ := step_next s
    rw [run_succ ht]
    exact ih t

theorem runInputs_nil (s : State) : runInputs [] s = .next (s.withInputs []) := rfl

/-- A run is the cycle of its first input and then the run over the others. -/
theorem runInputs_cons_eq {x : PortInput} {s t : State} (h : cycle x s = .next t) (xs : List PortInput) :
    runInputs (x :: xs) s = runInputs xs t :=
  runInputs_cons (cycle_withInputs h xs)

/-- Settles O16, by induction on the first list: one cycle after another, each on what the one before left (R58). -/
theorem runsTakeEffectInOrder : Obligations.RunsTakeEffectInOrder := by
  intro xs ys
  induction xs with
  | nil => exact fun s => ⟨_, runInputs_nil s, rfl⟩
  | cons x xs ih =>
    intro s
    obtain ⟨t, ht⟩ := cycle_next x s
    rw [List.cons_append, runInputs_cons_eq ht, runInputs_cons_eq ht]
    exact ih t

/-! ### A stream without a reserved opcode -/

/-- A cycle without an illegal command ends with `cmd_err = 0` (R76, R160). -/
theorem cycle_cmdErr_false {x : PortInput} (hx : x.isIllegal = false) (s : State) :
    ∃ t, cycle x s = .next t ∧ t.cmdErr = false := by
  obtain ⟨-, -, -, hcycle⟩ := reservedOpcodesRaiseIllegalCommand
  obtain ⟨t, ht, herr⟩ := hcycle s x
  refine ⟨t, ht, Bool.eq_false_of_not_eq_true fun hraised => ?_⟩
  obtain ⟨hr, hv, hreserved⟩ := herr.mp hraised
  simp [PortInput.isIllegal, hr, hv, hreserved] at hx

theorem wellFormedStream_iff (xs : List PortInput) : wellFormedStream xs = true ↔ ∀ x ∈ xs, x.isIllegal = false := by
  simp [wellFormedStream]

/-- From a state without an error, a stream without an illegal command, empty or not, ends without one. -/
theorem runInputs_cmdErr_false {xs : List PortInput} (hxs : ∀ x ∈ xs, x.isIllegal = false) {s : State}
    (hs : s.cmdErr = false) : ∃ t, runInputs xs s = .next t ∧ t.cmdErr = false := by
  induction xs generalizing s with
  | nil => exact ⟨_, runInputs_nil s, hs⟩
  | cons x xs ih =>
    obtain ⟨hx, hrest⟩ := List.forall_mem_cons.mp hxs
    obtain ⟨t, ht, herr⟩ := cycle_cmdErr_false hx s
    rw [runInputs_cons_eq ht]
    exact ih hrest herr

/-- Settles O36: the first cycle clears whatever error the state before it showed, and no later one raises one. -/
theorem wellFormedStreamsRaiseNothing : Obligations.WellFormedStreamsRaiseNothing := by
  intro s xs hne hxs
  cases xs with
  | nil => exact absurd rfl hne
  | cons x xs =>
    obtain ⟨hx, hrest⟩ := List.forall_mem_cons.mp ((wellFormedStream_iff _).mp hxs)
    obtain ⟨t, ht, herr⟩ := cycle_cmdErr_false hx s
    rw [runInputs_cons_eq ht]
    exact runInputs_cmdErr_false hrest herr

/-! ### What changes what -/

/-- Settles O39: a command that is no CREATE and no ROLL by its opcode leaves the four attributes (R20). -/
theorem otherCyclesChangeNoAttribute : Obligations.OtherCyclesChangeNoAttribute := by
  intro s x hx
  simp only [PortInput.changesState, Bool.or_eq_false_iff, Bool.and_eq_false_imp, beq_eq_false_iff_ne] at hx
  obtain ⟨hr, hcmd⟩ := hx
  cases hv : x.cmdValid with
  | false => exact ⟨_, cycle_of_idle hr hv s, ⟨rfl, rfl, rfl, rfl⟩, rfl⟩
  | true =>
    obtain ⟨hnotOne, hnotTwo⟩ := hcmd hv
    have hcreate : decode x.cmd ≠ .create := by rwa [Ne, ← opcode_eq_one_iff, opcode_decode]
    rw [cycle_of_command hr hv]
    exact exec_frame hcreate ((decode_ne_roll_iff x.cmd).mpr hnotTwo) s

/-- A command takes states with the same attributes to states with the same attributes: it reads nothing else (R20). -/
theorem exec_sameArch (i : Instr) {s s' : State} (h : s.SameArch s') :
    ∃ t t', exec i s = .next t ∧ exec i s' = .next t' ∧ t.SameArch t' := by
  cases s
  cases s'
  obtain ⟨rfl, rfl, rfl, rfl⟩ := h
  cases i <;> exact ⟨_, _, rfl, rfl, rfl, rfl, rfl, rfl⟩

theorem cycle_sameArch (x : PortInput) {s s' : State} (h : s.SameArch s') :
    ∃ t t', cycle x s = .next t ∧ cycle x s' = .next t' ∧ t.SameArch t' := by
  cases hr : x.rst with
  | true => exact ⟨_, _, cycle_of_rst hr s, cycle_of_rst hr s', rfl, rfl, rfl, rfl⟩
  | false =>
    cases hv : x.cmdValid with
    | false => exact ⟨_, _, cycle_of_idle hr hv s, cycle_of_idle hr hv s', h⟩
    | true =>
      rw [cycle_of_command hr hv, cycle_of_command hr hv]
      exact exec_sameArch _ h

/-- Two runs from states with the same attributes keep them the same when the second leaves out the cycles that change
nothing. -/
theorem runInputs_filter_sameArch (xs : List PortInput) {s s' : State} (h : s.SameArch s') :
    ∃ t u, runInputs xs s = .next t ∧ runInputs (xs.filter PortInput.changesState) s' = .next u ∧ t.SameArch u := by
  induction xs generalizing s s' with
  | nil => exact ⟨_, _, runInputs_nil s, runInputs_nil s', h⟩
  | cons x xs ih =>
    cases hx : x.changesState with
    | true =>
      obtain ⟨t, t', ht, ht', hsame⟩ := cycle_sameArch x h
      rw [List.filter_cons_of_pos hx, runInputs_cons_eq ht, runInputs_cons_eq ht']
      exact ih hsame
    | false =>
      obtain ⟨t, ht, ⟨hwindow, hcursor, hsum1, hsum2⟩, -⟩ := otherCyclesChangeNoAttribute s x hx
      obtain ⟨hwindow', hcursor', hsum1', hsum2'⟩ := h
      rw [List.filter_cons_of_neg (by simp [hx]), runInputs_cons_eq ht]
      exact ih ⟨hwindow.trans hwindow', hcursor.trans hcursor', hsum1.trans hsum1', hsum2.trans hsum2'⟩

/-- Settles O40: both runs begin in the same state. -/
theorem cyclesThatChangeNothingAreInvisible : Obligations.CyclesThatChangeNothingAreInvisible :=
  fun _ xs => runInputs_filter_sameArch xs ⟨rfl, rfl, rfl, rfl⟩

/-- Settles O37: the frame of the other commands, ROLL's store, and the window that CREATE and reset clear (R51). -/
theorem onlyRollCreateAndResetWriteTheWindow : Obligations.OnlyRollCreateAndResetWriteTheWindow := by
  refine ⟨fun i s hcreate hroll => ?_, fun b s => ⟨_, exec_roll b s, s.readSlot_roll b⟩, fun s v w a => ?_⟩
  · obtain ⟨t, ht, ⟨hwindow, -, -, -⟩, -⟩ := exec_frame hcreate hroll s
    exact ⟨t, ht, fun a => by rw [hwindow]⟩
  · exact ⟨⟨_, exec_create s, s.readSlot_initialise a⟩, _, cycle_of_rst rfl s, s.readSlot_initialise a⟩

/-! ### UPDATE -/

/-- The new `sum2`, as a number: the subtraction modulo 2^32 adds the complement of what is dropped (R9, R101). -/
theorem update_snd_toNat (s1 s2 : Word) (d b : Byte) :
    (update s1 s2 d b).2.toNat =
      (s2.toNat + (update s1 s2 d b).1.toNat + (2 ^ 32 - 64 * (d.toNat + 31))) % 2 ^ 32 := by
  have hd := d.isLt
  rw [update_snd_eq, BitVec.toNat_sub, BitVec.toNat_add, BitVec.toNat_mul, BitVec.toNat_add, BitVec.toNat_setWidth,
    BitVec.toNat_ofNat, BitVec.toNat_ofNat]
  omega

/-- Settles O20: adding the complement is subtracting modulo 2^32. -/
theorem updateIsExactModulo2Pow32 : Obligations.UpdateIsExactModulo2Pow32 := by
  intro s1 s2 d b
  have hd := d.isLt
  have hsum1 := update_fst_toNat s1 s2 d b
  have hsum2 := update_snd_toNat s1 s2 d b
  omega

/-! ### The invariants of a step -/

/-- A property of the four attributes that holds at reset and that ROLL keeps is kept by every step. -/
theorem step_keeps {P : State → Prop} (hcongr : ∀ {s t : State}, t.SameArch s → P s → P t) (hreset : P State.reset)
    (hroll : ∀ s b, P s → P (s.roll b)) {s t : State} (hs : P s) (h : step s = .next t) : P t := by
  obtain ht | ⟨b, ht⟩ | ht := step_sameArch_cases h
  · exact hcongr ht hreset
  · exact hcongr ht (hroll s b hs)
  · exact hcongr ht hs

theorem State.wf_of_sameArch {s t : State} (hsame : t.SameArch s) (h : s.window.wf = true) : t.window.wf = true := by
  obtain ⟨hwindow, -, -, -⟩ := hsame
  rwa [hwindow]

theorem State.wf_roll (s : State) (b : Byte) (h : s.window.wf = true) : (s.roll b).window.wf = true :=
  State.wf_writeSlot s.cursor b h

/-- Settles O42: ROLL stores within the window, reset and CREATE clear it, and nothing else writes it. -/
theorem stepKeepsWindowCanonical : Obligations.StepKeepsWindowCanonical :=
  fun _ _ => step_keeps (P := fun s => s.window.wf = true) State.wf_of_sameArch Memory.wf_cleared State.wf_roll

/-- Settles O43: the cleared window, and the window filled with free bytes. -/
theorem resetWindowIsCanonical : Obligations.ResetWindowIsCanonical :=
  ⟨Memory.wf_cleared, Memory.wf_filled Config.powerOnByte le_rfl⟩

/-- A byte put at the end raises the weight of every byte before it by one. -/
theorem weightedSum_concat (bs : List Byte) (b : Byte) :
    weightedSum (bs ++ [b]) = weightedSum bs + offsetSum (bs ++ [b]) := by
  induction bs with
  | nil => simp [weightedSum, offsetSum]
  | cons c cs ih =>
    simp only [List.cons_append, weightedSum, offsetSum, ih, List.length_append, List.length_singleton]
    ring

/-- R30's closed form of `sum2`, with the constant 60512 of 90_conflicts.md C1. -/
def State.Sum2ClosedForm (s : State) : Prop := s.sum2 = BitVec.ofNat 32 (60512 + weightedSum s.ageOrder)

theorem State.closedForm_iff (s : State) : s.ClosedForm ↔ s.Sum1ClosedForm ∧ s.Sum2ClosedForm := Iff.rfl

/-- UPDATE takes out the dropped byte with its weight of 64, and the new `sum1` that it adds is the rise of all the weights
(R106). -/
theorem State.Sum2ClosedForm.roll {s : State} (h1 : s.Sum1ClosedForm) (h2 : s.Sum2ClosedForm) (b : Byte) :
    (s.roll b).Sum2ClosedForm := by
  have hlength : s.ageOrder.tail.length + 1 = 64 := by rw [List.length_tail, s.length_ageOrder]
  have hnew : (update s.sum1 s.sum2 (s.readSlot s.cursor) b).1 = BitVec.ofNat 32 (offsetSum (s.ageOrder.tail ++ [b])) := by
    rw [← s.ageOrder_roll]
    exact h1.roll b
  rw [State.Sum2ClosedForm, s.ageOrder_eq_cons, weightedSum, hlength] at h2
  rw [State.Sum2ClosedForm, s.ageOrder_roll, weightedSum_concat, State.roll_sum2, update_snd_eq, hnew, h2]
  simp only [BitVec.ofNat_add, BitVec.ofNat_mul, BitVec.ofNat_toNat]
  ring

theorem State.ClosedForm.roll {s : State} (h : s.ClosedForm) (b : Byte) : (s.roll b).ClosedForm := by
  obtain ⟨h1, h2⟩ := s.closedForm_iff.mp h
  exact ⟨h1.roll b, h2.roll h1 b⟩

theorem State.ClosedForm.of_sameArch {s t : State} (hsame : t.SameArch s) (h : s.ClosedForm) : t.ClosedForm := by
  obtain ⟨h1, h2⟩ := h
  have ⟨_, _, hsum1, hsum2⟩ := hsame
  rw [State.ClosedForm, hsum1, hsum2, State.ageOrder_congr hsame]
  exact ⟨h1, h2⟩

theorem State.ageOrder_reset : State.reset.ageOrder = List.replicate 64 0x00#8 := by decide

/-- The initial sums are those of a window of 64 zero bytes (R7, R30). -/
theorem State.closedForm_reset : State.reset.ClosedForm := by
  rw [State.ClosedForm, State.ageOrder_reset]
  decide

/-- Settles O44: reset and CREATE make the closed form true and UPDATE keeps it. -/
theorem stepKeepsClosedForm : Obligations.StepKeepsClosedForm :=
  fun _ _ => step_keeps State.ClosedForm.of_sameArch State.closedForm_reset fun _ b hs => hs.roll b

/-- Settles O45: the closed form reads no input to come. -/
theorem resetHasClosedForm : Obligations.ResetHasClosedForm :=
  fun _ => State.ClosedForm.of_sameArch (s := State.reset) ⟨rfl, rfl, rfl, rfl⟩ State.closedForm_reset

theorem State.Reachable.closedForm {s : State} (h : s.Reachable) : s.ClosedForm :=
  h.of_roll_keeps State.ClosedForm.of_sameArch State.closedForm_reset fun _ b hs => hs.roll b

theorem State.Reachable.wf {s : State} (h : s.Reachable) : s.window.wf = true :=
  h.of_roll_keeps (P := fun s => s.window.wf = true) State.wf_of_sameArch Memory.wf_cleared State.wf_roll

/-- Settles O46: what holds at reset and what every step keeps. -/
theorem reachableStatesMeetInvariants : Obligations.ReachableStatesMeetInvariants := fun _ h => ⟨h.closedForm, h.wf⟩

/-! ### The range of the sums -/

/-- Each byte adds at least 31. -/
theorem le_offsetSum (bs : List Byte) : 31 * bs.length ≤ offsetSum bs := by
  induction bs with
  | nil => rfl
  | cons c cs ih =>
    simp only [offsetSum, List.length_cons]
    omega

/-- The weights of `n` bytes add up to `n * (n + 1) / 2`, and each byte counts for 31 to 286. -/
theorem weightedSum_bounds (bs : List Byte) :
    31 * (bs.length * (bs.length + 1)) ≤ 2 * weightedSum bs ∧
      2 * weightedSum bs ≤ 286 * (bs.length * (bs.length + 1)) := by
  induction bs with
  | nil => exact ⟨le_rfl, le_rfl⟩
  | cons c cs ih =>
    obtain ⟨hmin, hmax⟩ := ih
    have hc := c.isLt
    have hleast : (cs.length + 1) * 31 ≤ (cs.length + 1) * (c.toNat + 31) := Nat.mul_le_mul_left _ (by omega)
    have hmost : (cs.length + 1) * (c.toNat + 31) ≤ (cs.length + 1) * 286 := Nat.mul_le_mul_left _ (by omega)
    simp only [weightedSum, List.length_cons]
    constructor <;> linarith

/-- No 32-bit wrap happens in the closed form: the sums are the numbers of R30. -/
theorem State.ClosedForm.sums_toNat {s : State} (h : s.ClosedForm) :
    s.sum1.toNat = offsetSum s.ageOrder ∧ s.sum2.toNat = 60512 + weightedSum s.ageOrder := by
  obtain ⟨h1, h2⟩ := h
  have hsum1 := offsetSum_le s.ageOrder
  obtain ⟨-, hsum2⟩ := weightedSum_bounds s.ageOrder
  rw [s.length_ageOrder] at hsum1 hsum2
  constructor
  · rw [h1, BitVec.toNat_ofNat]; exact Nat.mod_eq_of_lt (by omega)
  · rw [h2, BitVec.toNat_ofNat]; exact Nat.mod_eq_of_lt (by omega)

/-- The ranges of R31. -/
theorem State.ClosedForm.sums_range {s : State} (h : s.ClosedForm) :
    1984 ≤ s.sum1.toNat ∧ s.sum1.toNat ≤ 18304 ∧ 124992 ≤ s.sum2.toNat ∧ s.sum2.toNat ≤ 655392 := by
  obtain ⟨h1, h2⟩ := h.sums_toNat
  have hmin1 := le_offsetSum s.ageOrder
  have hmax1 := offsetSum_le s.ageOrder
  obtain ⟨hmin2, hmax2⟩ := weightedSum_bounds s.ageOrder
  rw [s.length_ageOrder] at hmin1 hmax1 hmin2 hmax2
  omega

/-- The bits from `lo` up of a word below `2^lo` are zero. -/
theorem extractLsb'_eq_zero_of_lt {v : Word} {lo : Nat} (h : v.toNat < 2 ^ lo) (n : Nat) : v.extractLsb' lo n = 0#n := by
  apply BitVec.eq_of_toNat_eq
  rw [BitVec.extractLsb'_toNat, Nat.shiftRight_eq_div_pow, Nat.div_eq_of_lt h, BitVec.toNat_ofNat]

/-- Settles O47: the ranges from the least and the greatest byte, and R31's two windows that attain them. -/
theorem closedFormBoundsTheSums : Obligations.ClosedFormBoundsTheSums := by
  refine ⟨fun s h => ?_, fun s h hzero => ?_, fun s h hfull => ?_⟩
  · obtain ⟨hmin1, hmax1, hmin2, hmax2⟩ := h.sums_range
    exact ⟨hmin1, hmax1, hmin2, hmax2, extractLsb'_eq_zero_of_lt (by omega) 17, extractLsb'_eq_zero_of_lt (by omega) 12⟩
  · rw [State.ClosedForm, hzero] at h
    exact h
  · rw [State.ClosedForm, hfull] at h
    exact h

/-! ### ROLL and streams of bytes -/

/-- Settles O49: the ports that a ROLL drives are no part of the age order. -/
theorem rollShiftsTheAgeOrder : Obligations.RollShiftsTheAgeOrder := by
  refine fun b s => ⟨_, exec_roll b s, s.ageOrder_roll b, ?_⟩
  rw [s.ageOrder_eq_cons, List.head?_cons]

/-- The cycle of an assembled command runs the command (R82). -/
theorem cycle_commandCycle (i : Instr) (s : State) : cycle (commandCycle i) s = exec i s :=
  (cycle_of_command rfl rfl s).trans (congrArg (exec · s) (decode_encode i))

/-- A stream's run begins with the ROLL of its first byte. -/
theorem runInputs_rollStream_cons (b : Byte) (bs : List Byte) (s : State) :
    runInputs (rollStream (b :: bs)) s = runInputs (rollStream bs) (s.roll b).quiet :=
  runInputs_cons_eq ((cycle_commandCycle (.roll b) s).trans (exec_roll b s)) _

/-- What a stream does to the age order and the cursor: its bytes push out as many of the oldest (R36), and the cursor counts
them modulo 64 (R22). The closed form is kept. -/
theorem runInputs_rollStream (stream : List Byte) (s : State) :
    ∃ t, runInputs (rollStream stream) s = .next t ∧ t.ageOrder = (s.ageOrder ++ stream).drop stream.length ∧
      t.cursor = s.cursor + BitVec.ofNat 6 stream.length ∧ (s.ClosedForm → t.ClosedForm) := by
  induction stream generalizing s with
  | nil =>
    refine ⟨_, runInputs_nil s, ?_, (BitVec.add_zero s.cursor).symm, fun h => h⟩
    rw [List.append_nil]
    rfl
  | cons b bs ih =>
    obtain ⟨t, ht, hage, hcursor, hclosed⟩ := ih (s.roll b).quiet
    have hquiet : (s.roll b).quiet.ageOrder = s.ageOrder.tail ++ [b] := s.ageOrder_roll b
    refine ⟨t, (runInputs_rollStream_cons b bs s).trans ht, ?_, ?_, fun h => hclosed (h.roll b)⟩
    · rw [hage, hquiet, s.ageOrder_eq_cons, List.append_assoc, List.singleton_append, List.cons_append, List.length_cons,
        List.drop_succ_cons, List.tail_cons]
    · rw [hcursor, State.quiet_cursor, State.roll_cursor, BitVec.add_assoc, List.length_cons, BitVec.ofNat_add,
        BitVec.add_comm 1#6]

/-- What a stream leaves after a CREATE: its last 64 bytes as the window, and the closed form of them (R30, R36). -/
theorem runInputs_create_rollStream (stream : List Byte) (s : State) :
    ∃ t, runInputs (commandCycle .create :: rollStream stream) s = .next t ∧ t.ageOrder = lastWindow stream ∧
      t.cursor.toNat = stream.length % 64 ∧ t.ClosedForm := by
  obtain ⟨t, ht, hage, hcursor, hclosed⟩ := runInputs_rollStream stream State.reset
  rw [State.ageOrder_reset] at hage
  refine ⟨t, (runInputs_create _ s).trans ht, hage, ?_, hclosed State.closedForm_reset⟩
  rw [hcursor, State.reset_cursor, BitVec.zero_add, BitVec.toNat_ofNat]

/-- Settles O50: a CREATE leaves 64 zero bytes, and the stream pushes out as many of them as it has bytes. -/
theorem windowHoldsTheLast64Bytes : Obligations.WindowHoldsTheLast64Bytes := by
  intro s stream
  obtain ⟨t, ht, hage, hcursor, -⟩ := runInputs_create_rollStream stream s
  exact ⟨t, ht, hage, hcursor⟩

/-- Settles O51: the closed form makes both sums functions of the window in age order (R111). -/
theorem historyBeyondTheWindowIsForgotten : Obligations.HistoryBeyondTheWindowIsForgotten := by
  intro s s' stream stream' hlast
  obtain ⟨t, ht, hage, -, h1, h2⟩ := runInputs_create_rollStream stream s
  obtain ⟨t', ht', hage', -, h1', h2'⟩ := runInputs_create_rollStream stream' s'
  have hsame : t.ageOrder = t'.ageOrder := hage.trans (hlast.trans hage'.symm)
  have hsum1 : t.sum1 = t'.sum1 := by rw [h1, h1', hsame]
  have hsum2 : t.sum2 = t'.sum2 := by rw [h2, h2', hsame]
  exact ⟨t, t', ht, ht', hsum1, hsum2, State.statusOutputs_congr hsum1 hsum2⟩

/-! ### Zero ROLLs -/

/-- The initial state `S0` with the cursor elsewhere. -/
def State.zeroAt (c : SlotAddr) : State := { State.reset with cursor := c }

/-- UPDATE with two zero bytes and `sum1 = 64 * 31` takes out of `sum2` what it adds (R107). -/
theorem update_zero_fixed (s2 : Word) : update 1984#32 s2 0x00#8 0x00#8 = (1984#32, s2) := by
  have hfst : (update 1984#32 s2 0x00#8 0x00#8).1 = 1984#32 := rfl
  refine Prod.ext hfst ?_
  rw [update_snd_eq, hfst]
  exact BitVec.add_sub_cancel s2 1984#32

/-- A ROLL of 0x00 in a zero window moves the cursor and nothing else. -/
theorem State.roll_zeroAt (c : SlotAddr) : ((State.zeroAt c).roll 0x00#8).quiet = State.zeroAt (c + 1#6) := by
  have hsums : update Config.initSum1 Config.initSum2 0x00#8 0x00#8 = (Config.initSum1, Config.initSum2) :=
    update_zero_fixed Config.initSum2
  have hroll : ((State.zeroAt c).roll 0x00#8).quiet = { State.zeroAt (c + 1#6) with
      sum1 := (update Config.initSum1 Config.initSum2 0x00#8 0x00#8).1
      sum2 := (update Config.initSum1 Config.initSum2 0x00#8 0x00#8).2 } := rfl
  rw [hroll, hsums]
  rfl

/-- `n` ROLLs of 0x00 in a zero window move the cursor by `n`, modulo 64. -/
theorem runInputs_zeroRolls (n : Nat) (c : SlotAddr) :
    runInputs (rollStream (List.replicate n 0x00#8)) (State.zeroAt c) = .next (State.zeroAt (c + BitVec.ofNat 6 n)) := by
  induction n generalizing c with
  | zero => exact congrArg (fun a => Host.Outcome.next (State.zeroAt a)) (BitVec.add_zero c).symm
  | succ n ih =>
    rw [List.replicate_succ, runInputs_rollStream_cons, State.roll_zeroAt, ih, BitVec.add_assoc, BitVec.ofNat_add,
      BitVec.add_comm 1#6]

/-- Settles O22: UPDATE's fixed point, and the cursor that counts the ROLLs and is back at 0 after 64 of them. -/
theorem zeroRollsAreAFixedPoint : Obligations.ZeroRollsAreAFixedPoint := by
  have hrun (n : Nat) : runInputs (rollStream (List.replicate n 0x00#8)) State.reset =
      .next (State.zeroAt (BitVec.ofNat 6 n)) := by
    rw [← BitVec.zero_add (BitVec.ofNat 6 n)]
    exact runInputs_zeroRolls n 0#6
  refine ⟨fun s hdropped hsum1 => ⟨_, exec_roll 0x00#8 s, ?_, ?_⟩, hrun, hrun 64⟩
  · rw [State.quiet_sum1, State.roll_sum1, hdropped, hsum1, update_zero_fixed]
  · rw [State.quiet_sum2, State.roll_sum2, hdropped, hsum1, update_zero_fixed]

/-! ### The digest, vbits and onSplit -/

/-- The predicate is read off the digest, whose low half is that of `sum2`. -/
theorem onSplit_iff_digest (s1 s2 : Word) : onSplit s2 = true ↔ (digest s1 s2).extractLsb' 0 13 = 0x1FFF#13 := by
  rw [← onSplit_iff_extract, onSplit_iff_bits, onSplit_iff_bits]
  exact forall₂_congr fun i hi => by rw [digest_getLsbD_low s1 s2 (by omega)]

/-- Where a run of ones ends at a zero or at the top of the word, it is the count of trailing ones. -/
theorem cto_eq_of_run {v : Word} {k : Nat} (hk : k ≤ 32) (hones : ∀ i < k, v.getLsbD i = true)
    (hzero : k < 32 → v.getLsbD k = false) : cto v = k := by
  obtain ⟨hle, hctoOnes, hctoZero⟩ := cto_spec v
  rcases Nat.lt_trichotomy (cto v) k with hlt | heq | hgt
  · exact absurd ((hctoZero (by omega)).symm.trans (hones _ hlt)) Bool.false_ne_true
  · exact heq
  · exact absurd ((hzero (by omega)).symm.trans (hctoOnes _ hgt)) Bool.false_ne_true

/-- The ones below the shift count go on in the shifted word. -/
theorem cto_eq_add_cto_ushiftRight {v : Word} {n : Nat} (hn : n ≤ 32) (hones : ∀ i < n, v.getLsbD i = true) :
    cto v = n + cto (v >>> n) := by
  obtain ⟨-, hshiftOnes, hshiftZero⟩ := cto_spec (v >>> n)
  have hle := cto_ushiftRight_le v hn
  simp only [BitVec.getLsbD_ushiftRight] at hshiftOnes hshiftZero
  refine cto_eq_of_run (by omega) (fun i hi => ?_) fun hlt => hshiftZero (by omega)
  by_cases hlow : i < n
  · exact hones i hlow
  · have hbit := hshiftOnes (i - n) (by omega)
    rwa [Nat.add_sub_cancel' (by omega)] at hbit

/-- Settles O30: on a split the 13 ones of the predicate stand below the ones that R132 counts. -/
theorem onSplitAndVbitsReadTheDigest : Obligations.OnSplitAndVbitsReadTheDigest := by
  refine fun s1 s2 => ⟨onSplit_iff_digest s1 s2, fun hsplit => ?_⟩
  have hones : ∀ i < 13, (digest s1 s2).getLsbD i = true := fun i hi => by
    rw [digest_getLsbD_low s1 s2 (by omega)]
    exact (onSplit_iff_bits s2).mp hsplit i hi
  rw [vbits_toNat, cto_eq_add_cto_ushiftRight (by decide) hones]

/-- Settles O31: the digest is the two low halves, and the other two functions read the digest (R139). -/
theorem upperHalvesReachNoQuery : Obligations.UpperHalvesReachNoQuery := by
  intro s1 s1' s2 s2' h1 h2
  have hdigest : digest s1 s2 = digest s1' s2' := by rw [digest_eq_append, digest_eq_append, h1, h2]
  refine ⟨hdigest, by rw [vbits, vbits, hdigest], ?_⟩
  rw [Bool.eq_iff_iff, onSplit_iff_digest s1 s2, onSplit_iff_digest s1' s2', hdigest]

/-! ### The range of vbits -/

/-- Bits 13 and 14 of `sum1` are not both one in the closed form: they alone would be 24576, above 18304. -/
theorem State.ClosedForm.sum1_bit_zero {s : State} (h : s.ClosedForm) :
    s.sum1.getLsbD 13 = false ∨ s.sum1.getLsbD 14 = false := by
  obtain ⟨-, hmax, -, -⟩ := h.sums_range
  simp only [BitVec.getLsbD, Nat.testBit_eq_decide_div_mod_eq, decide_eq_false_iff_not]
  omega

/-- The run of ones of R132 ends in `sum1` at bit 14 at the latest (R138). -/
theorem State.ClosedForm.vbits_le {s : State} (h : s.ClosedForm) : (vbits s.sum1 s.sum2).toNat ≤ 30 := by
  obtain ⟨-, hones, -⟩ := cto_spec (digest s.sum1 s.sum2 >>> 13)
  simp only [BitVec.getLsbD_ushiftRight] at hones
  rw [vbits_toNat]
  by_contra hlong
  have h13 := digest_getLsbD_high s.sum1 s.sum2 (j := 13) (by decide)
  have h14 := digest_getLsbD_high s.sum1 s.sum2 (j := 14) (by decide)
  have hone13 : s.sum1.getLsbD 13 = true := h13.symm.trans (hones 16 (by omega))
  have hone14 : s.sum1.getLsbD 14 = true := h14.symm.trans (hones 17 (by omega))
  rcases h.sum1_bit_zero with hzero | hzero
  · exact Bool.false_ne_true (hzero.symm.trans hone13)
  · exact Bool.false_ne_true (hzero.symm.trans hone14)

theorem State.Reachable.run {n : Nat} {s t : State} (hs : s.Reachable) (h : Host.Core.run Sys2Proof.core n s = .next t) :
    t.Reachable := by
  induction n generalizing s with
  | zero => exact Host.Outcome.next.inj h ▸ hs
  | succ n ih =>
    obtain ⟨u, hu⟩ := step_next s
    exact ih (.afterStep hs hu) ((run_succ hu n).symm.trans h)

/-- What a run from the reset state answers is reachable. -/
theorem State.reachable_of_runInputs {xs : List PortInput} {t : State} (h : runInputs xs State.reset = .next t) :
    t.Reachable :=
  State.Reachable.run (.afterReset xs) h

/-- The stream of 95_test_vectors.md section 2.4, vector Q30. -/
def streamQ30 : List Byte := [
  0xD3, 0xDF, 0xE3, 0xDE, 0xDA, 0xD4, 0xE8, 0xE1, 0xEF, 0xD9, 0xCE, 0xD4, 0xE3, 0xE5, 0xD8, 0xE1,
  0xF3, 0xE1, 0xE3, 0xD9, 0xDB, 0xD3, 0xE0, 0xE0, 0xE1, 0xE5, 0xDB, 0xE0, 0xDB, 0xDD, 0xF4, 0xF2,
  0xD1, 0xE9, 0xD4, 0xDE, 0xD3, 0xF4, 0xE4, 0xEE, 0xE3, 0xD7, 0xE0, 0xCF, 0xE0, 0xDF, 0xDC, 0xD5,
  0xE0, 0xF3, 0xEF, 0xFF, 0xDA, 0xF2, 0xF0, 0xD6, 0xE2, 0xCF, 0xE4, 0xDA, 0xE8, 0xF3, 0xEC, 0xE6]

/-- The sums that the closed form gives for vector Q30. -/
theorem sums_streamQ30 : BitVec.ofNat 32 (offsetSum (lastWindow streamQ30)) = 0x00003FFF#32 ∧
    BitVec.ofNat 32 (60512 + weightedSum (lastWindow streamQ30)) = 0x0008FFFF#32 := by decide

/-- R138's bound is attained, with `onSplit`, by the sums of vector Q30. -/
theorem queries_of_sumsQ30 : vbits 0x00003FFF#32 0x0008FFFF#32 = 30#6 ∧ onSplit 0x0008FFFF#32 = true := by decide

/-- Some run from the reset state ends with the sums of vector Q30. -/
theorem exists_reachable_sumsQ30 : ∃ t : State, t.Reachable ∧ t.sum1 = 0x00003FFF#32 ∧ t.sum2 = 0x0008FFFF#32 := by
  obtain ⟨t, ht, hage, -, h1, h2⟩ := runInputs_create_rollStream streamQ30 State.reset
  obtain ⟨hsum1, hsum2⟩ := sums_streamQ30
  rw [hage] at h1 h2
  exact ⟨t, State.reachable_of_runInputs ht, h1.trans hsum1, h2.trans hsum2⟩

/-- Settles O48: the range of R133, R138's bound in the closed form, and vector Q30. -/
theorem vbitsRange : Obligations.VbitsRange := by
  refine ⟨vbits_range, fun s h => ⟨h.vbits_le, (State.closedForm_sum1 h).digest_getLsbD_31⟩, ?_⟩
  obtain ⟨t, hreachable, hsum1, hsum2⟩ := exists_reachable_sumsQ30
  obtain ⟨-, hvbits, hsplit⟩ := State.statusOutputs_congr (s := t) rfl rfl
  obtain ⟨hvbitsQ30, hsplitQ30⟩ := queries_of_sumsQ30
  rw [hsum1, hsum2] at hvbits
  rw [hsum2] at hsplit
  exact ⟨t, hreachable, hvbits.trans hvbitsQ30, hsplit.trans hsplitQ30⟩

/-! ### The assembler -/

/-- A number is a byte operand exactly when it is a byte's value (R82). -/
theorem byteOperand_eq_ok_iff (v : Nat) (b : Byte) : byteOperand v = .ok b ↔ v = b.toNat := by
  have hb := b.isLt
  unfold byteOperand
  split
  · rw [Except.ok.injEq, ← BitVec.toNat_inj, BitVec.toNat_ofNat]
    omega
  · simp only [reduceCtorEq, false_iff]
    omega

/-- The cycle of `ROLL <b>` is that of the byte's ROLL. -/
theorem rollCycle_eq_ok_iff (v : Nat) (x : PortInput) :
    rollCycle v = .ok x ↔ ∃ b : Byte, v = b.toNat ∧ x = commandCycle (.roll b) := by
  simp only [← byteOperand_eq_ok_iff]
  unfold rollCycle
  cases byteOperand v with
  | error e => simp
  | ok b => simp [eq_comm]

theorem rollCycles_nil : rollCycles [] = .ok [] := rfl

/-- A list of numbers assembles to the cycles of its first and of its others. -/
theorem rollCycles_cons_eq_ok_iff (v : Nat) (vs : List Nat) (xs : List PortInput) :
    rollCycles (v :: vs) = .ok xs ↔ ∃ y ys, rollCycle v = .ok y ∧ rollCycles vs = .ok ys ∧ xs = y :: ys := by
  rw [rollCycles]
  cases rollCycle v with
  | error e => simp
  | ok y =>
    cases rollCycles vs with
    | error e => simp
    | ok ys => simp [eq_comm]

/-- FEED's cycles: the numbers are the bytes of a stream, and the cycles are their ROLLs in order (R83, R108). -/
theorem rollCycles_eq_ok_iff (vs : List Nat) (xs : List PortInput) :
    rollCycles vs = .ok xs ↔ ∃ bs : List Byte, vs = bs.map BitVec.toNat ∧ xs = rollStream bs := by
  induction vs generalizing xs with
  | nil =>
    rw [rollCycles_nil, Except.ok.injEq]
    constructor
    · rintro rfl
      exact ⟨[], rfl, rfl⟩
    · rintro ⟨bs, hbs, rfl⟩
      rw [List.map_eq_nil_iff.mp hbs.symm]
      rfl
  | cons v vs ih =>
    simp only [rollCycles_cons_eq_ok_iff, rollCycle_eq_ok_iff, ih]
    constructor
    · rintro ⟨_, _, ⟨b, rfl, rfl⟩, ⟨bs, rfl, rfl⟩, rfl⟩
      exact ⟨b :: bs, rfl, rfl⟩
    · rintro ⟨bs, hbs, rfl⟩
      obtain ⟨b, bs, rfl, rfl, rfl⟩ := List.map_eq_cons_iff.mp hbs.symm
      exact ⟨_, _, ⟨b, rfl, rfl⟩, ⟨bs, rfl, rfl⟩, rfl⟩

/-- What holds of the cycle of a number holds of a byte's ROLL. -/
theorem exists_rollCycle_and_iff {v : Nat} {p : PortInput → Prop} :
    (∃ x, rollCycle v = .ok x ∧ p x) ↔ ∃ b : Byte, v = b.toNat ∧ p (commandCycle (.roll b)) := by
  simp only [rollCycle_eq_ok_iff]
  constructor
  · rintro ⟨_, ⟨b, hb, rfl⟩, hp⟩
    exact ⟨b, hb, hp⟩
  · rintro ⟨b, hb, hp⟩
    exact ⟨_, ⟨b, hb, rfl⟩, hp⟩

/-- `ROLL <b>` stands for one ROLL (R82). -/
theorem assemble_roll_eq_ok_iff (v : Nat) (xs : List PortInput) :
    (AsmLine.roll v).assemble = .ok xs ↔ ∃ b : Byte, v = b.toNat ∧ xs = [commandCycle (.roll b)] := by
  rw [← exists_rollCycle_and_iff (p := fun x => xs = [x]), AsmLine.assemble, rollCycles_cons_eq_ok_iff, rollCycles_nil]
  simp

/-- `FEED <b> * <n>` stands for `n` ROLLs of one byte (R83). -/
theorem assemble_feedRepeat_eq_ok_iff (v n : Nat) (xs : List PortInput) :
    (AsmLine.feedRepeat v n).assemble = .ok xs ↔
      ∃ b : Byte, v = b.toNat ∧ xs = List.replicate n (commandCycle (.roll b)) := by
  rw [← exists_rollCycle_and_iff (p := fun x => xs = List.replicate n x), AsmLine.assemble]
  cases rollCycle v with
  | error e => simp
  | ok x => simp [eq_comm]

/-- `STEP <b>` stands for a ROLL and an ONSPLIT (R83). -/
theorem assemble_step_eq_ok_iff (v : Nat) (xs : List PortInput) :
    (AsmLine.step v).assemble = .ok xs ↔
      ∃ b : Byte, v = b.toNat ∧ xs = [commandCycle (.roll b), commandCycle .onsplit] := by
  rw [← exists_rollCycle_and_iff (p := fun x => xs = [x, commandCycle .onsplit]), AsmLine.assemble]
  cases rollCycle v with
  | error e => simp
  | ok x => simp [eq_comm]

theorem assemble_feed (vs : List Nat) : (AsmLine.feed vs).assemble = rollCycles vs := rfl

/-- A text of ASCII codes is the FEED of its codes (R83). -/
theorem assemble_feedText_of_ascii {codes : List Nat} (hascii : ∀ c ∈ codes, c ≤ 127) :
    (AsmLine.feedText codes).assemble = rollCycles codes := by
  have hfind : codes.find? (fun c => decide (127 < c)) = none := by simpa using hascii
  rw [AsmLine.assemble, hfind]

/-- A text with another character does not assemble (log 14). -/
theorem ascii_of_assemble_feedText {codes : List Nat} {xs : List PortInput}
    (h : (AsmLine.feedText codes).assemble = .ok xs) : ∀ c ∈ codes, c ≤ 127 := by
  rw [AsmLine.assemble] at h
  split at h
  · cases h
  next hfind => simpa using hfind

/-- A text assembles to the FEED of its codes, provided that all of them are ASCII. -/
theorem assemble_feedText_eq_ok_iff (codes : List Nat) (xs : List PortInput) :
    (AsmLine.feedText codes).assemble = .ok xs ↔ (∀ c ∈ codes, c ≤ 127) ∧ rollCycles codes = .ok xs := by
  constructor
  · intro h
    have hascii := ascii_of_assemble_feedText h
    exact ⟨hascii, (assemble_feedText_of_ascii hascii).symm.trans h⟩
  · rintro ⟨hascii, h⟩
    exact (assemble_feedText_of_ascii hascii).trans h

/-- `.word <w>` stands for its word when it has 12 bits (R83; log 14). -/
theorem assemble_word_eq_ok_iff (v : Nat) (xs : List PortInput) :
    (AsmLine.word v).assemble = .ok xs ↔ ∃ w : CmdWord, v = w.toNat ∧ xs = [PortInput.command w] := by
  rw [AsmLine.assemble, wordOfNumber]
  by_cases hv : v < 2 ^ 12
  · simp only [hv, if_true, Except.ok.injEq]
    constructor
    · rintro rfl
      exact ⟨BitVec.ofNat 12 v, (Nat.mod_eq_of_lt hv).symm, rfl⟩
    · rintro ⟨w, rfl, rfl⟩
      rw [BitVec.ofNat_toNat, BitVec.setWidth_eq]
  · simp only [hv, if_false, reduceCtorEq, false_iff]
    rintro ⟨w, rfl, -⟩
    exact hv w.isLt

/-- Settles O52: each line's cycles, from the lemma that says when it assembles to them. -/
theorem pseudoInstructionsExpand : Obligations.PseudoInstructionsExpand := by
  refine ⟨fun bs => (rollCycles_eq_ok_iff _ _).mpr ⟨bs, rfl, rfl⟩,
    fun codes hascii => (assemble_feedText_of_ascii hascii).trans (assemble_feed codes).symm,
    fun b n => (assemble_feedRepeat_eq_ok_iff _ _ _).mpr ⟨b, rfl, rfl⟩,
    fun b => (assemble_step_eq_ok_iff _ _).mpr ⟨b, rfl, rfl⟩,
    fun n => ⟨_, rfl, List.length_replicate, fun x hx => ?_⟩, ⟨_, rfl, rfl⟩,
    fun w => (assemble_word_eq_ok_iff _ _).mpr ⟨w, rfl, rfl⟩⟩
  rw [List.eq_of_mem_replicate hx]
  exact ⟨rfl, rfl⟩

/-- The numbers that are values of a word of `n` bits. -/
theorem exists_toNat_iff (n v : Nat) : (∃ w : BitVec n, v = w.toNat) ↔ v < 2 ^ n := by
  constructor
  · rintro ⟨w, rfl⟩
    exact w.isLt
  · exact fun hv => ⟨BitVec.ofNat n v, (Nat.mod_eq_of_lt hv).symm⟩

theorem exists_byte_iff (v : Nat) : (∃ b : Byte, v = b.toNat) ↔ v ≤ 255 :=
  (exists_toNat_iff 8 v).trans Nat.lt_succ_iff

/-- A list of numbers assembles exactly when each is a byte. -/
theorem exists_rollCycles_iff (vs : List Nat) : (∃ xs, rollCycles vs = .ok xs) ↔ ∀ v ∈ vs, v ≤ 255 := by
  have hbytes : (∃ bs : List Byte, bs.map BitVec.toNat = vs) ↔ ∀ v ∈ vs, ∃ b : Byte, b.toNat = v :=
    Set.ext_iff.mp (Set.range_list_map (BitVec.toNat (w := 8))) vs
  simp only [rollCycles_eq_ok_iff, ← exists_byte_iff, eq_comm (b := BitVec.toNat _), ← hbytes]
  constructor
  · rintro ⟨_, bs, hbs, -⟩
    exact ⟨bs, hbs.symm⟩
  · rintro ⟨bs, hbs⟩
    exact ⟨_, bs, hbs.symm, rfl⟩

/-- Settles O53, line by line: the operands that the check asks for are those that have cycles. -/
theorem linesAssembleExactlyWhenWellFormed : Obligations.LinesAssembleExactlyWhenWellFormed := by
  intro l
  cases l with
  | nop | create | digest | vbits | onsplit | idle | reset => exact ⟨fun _ => rfl, fun _ => ⟨_, rfl⟩⟩
  | roll byte => simp [AsmLine.wellFormed, assemble_roll_eq_ok_iff, ← exists_byte_iff]
  | feedRepeat byte count => simp [AsmLine.wellFormed, assemble_feedRepeat_eq_ok_iff, ← exists_byte_iff]
  | step byte => simp [AsmLine.wellFormed, assemble_step_eq_ok_iff, ← exists_byte_iff]
  | feed bytes =>
    rw [assemble_feed, exists_rollCycles_iff]
    simp [AsmLine.wellFormed]
  | feedText codes =>
    have hbytes : (∀ c ∈ codes, c ≤ 127) → ∀ c ∈ codes, c ≤ 255 := fun hascii c hc => (hascii c hc).trans (by decide)
    simp only [assemble_feedText_eq_ok_iff, exists_and_left, exists_rollCycles_iff, and_iff_left_of_imp hbytes]
    simp [AsmLine.wellFormed]
  | word value => simp [AsmLine.wellFormed, assemble_word_eq_ok_iff, exists_toNat_iff]

/-- The cycle of an assembled command is illegal exactly when the command is reserved (R76). -/
theorem commandCycle_isIllegal (i : Instr) : (commandCycle i).isIllegal = !i.wellFormed :=
  congrArg (fun j : Instr => !j.wellFormed) (decode_encode i)

theorem wellFormedStream_rollStream (bs : List Byte) : wellFormedStream (rollStream bs) = true := by
  rw [wellFormedStream_iff]
  intro x hx
  obtain ⟨b, -, rfl⟩ := List.mem_map.mp hx
  exact commandCycle_isIllegal (.roll b)

/-- Settles O54, line by line: a line's commands are among the six, and IDLE and RESET carry none. -/
theorem assembledLinesAreWellFormedStreams : Obligations.AssembledLinesAreWellFormedStreams := by
  intro l xs hword hxs
  cases l with
  | nop | create | digest | vbits | onsplit | reset => exact Except.ok.inj hxs ▸ rfl
  | idle cycles =>
    rw [← Except.ok.inj hxs, wellFormedStream_iff]
    exact fun x hx => List.eq_of_mem_replicate hx ▸ rfl
  | roll byte =>
    obtain ⟨b, -, rfl⟩ := (assemble_roll_eq_ok_iff _ _).mp hxs
    exact wellFormedStream_rollStream [b]
  | feed bytes =>
    obtain ⟨bs, -, rfl⟩ := (rollCycles_eq_ok_iff _ _).mp hxs
    exact wellFormedStream_rollStream bs
  | feedText codes =>
    obtain ⟨-, hcycles⟩ := (assemble_feedText_eq_ok_iff _ _).mp hxs
    obtain ⟨bs, -, rfl⟩ := (rollCycles_eq_ok_iff _ _).mp hcycles
    exact wellFormedStream_rollStream bs
  | feedRepeat byte count =>
    obtain ⟨b, -, rfl⟩ := (assemble_feedRepeat_eq_ok_iff _ _ _).mp hxs
    rw [wellFormedStream_iff]
    exact fun x hx => List.eq_of_mem_replicate hx ▸ commandCycle_isIllegal (.roll b)
  | step byte =>
    obtain ⟨b, -, rfl⟩ := (assemble_step_eq_ok_iff _ _).mp hxs
    simp [wellFormedStream, commandCycle_isIllegal, Instr.wellFormed]
  | word value => exact absurd rfl (hword value)

end Sys2Proof.Machine
end
